-- ==== Sys2Proof/Word.lean ====
section
/-! DEFINITION. The plain types the whole model is written in: bytes, and the numbers of the part's bays, buses, issuer
slots and journal sectors (00_scope, "Bays and buses"; R24, R48, R143). -/

namespace Sys2Proof

/-- One byte on the controller link, on a token bus or in the journal. -/
abbrev Byte := BitVec 8

/-- A bay number, 0 to 11 (00_scope, "Bays and buses"). -/
abbrev Bay := Fin 12

/-- A token bus number, 0 to 2 (R24). -/
abbrev Bus := Fin 3

/-- An issuer slot number, 0 to 3 (R48). -/
abbrev SlotNo := Fin 4

/-- A journal sector number, 0 to 7 (R143). -/
abbrev Sector := Fin 8

/-- A token's serial number (00_scope, "Numbers and names"). -/
abbrev Serial := BitVec 64

/-- Replace entry `i` of a fixed-size table by `f` of it. -/
def upd {α : Type} {n : Nat} (v : Vector α n) (i : Fin n) (f : α → α) : Vector α n :=
  v.set i (f v[i])

/-- The twelve bays in increasing order. -/
def allBays : List Bay := [0, 1, 2, 3, 4, 5, 6, 7, 8, 9, 10, 11]

/-- The eight journal sectors in increasing order. -/
def allSectors : List Sector := [0, 1, 2, 3, 4, 5, 6, 7]

/-- The four issuer slots in increasing order. -/
def allSlots : List SlotNo := [0, 1, 2, 3]

end Sys2Proof
end

