-- ==== Sys2Proof/Syntax.lean ====
section
/-! DEFINITION. The commands of the part: one constructor of `Instr` for each row of spec/opcode_table.json, in the
table's order. The rows carry no operands of their own; each constructor's operands are those of the rule its row names
(a bay, a bus, a token's reply frame as received, a request's tag, claimed level and payload). -/

namespace Sys2Proof

/-- What the outside world shows the part at a cold reset: the levels of the two straps (R170), of the two supply-warning
lines (R137) and of the twelve presence lines (R3), and, where the reset cuts a key-store write short, whether the part
of the write that R52 asks about had landed. -/
structure ResetInputs where
  factoryStrap : Bool
  serviceStrap : Bool
  supplyWarn : Bool
  supplyCrit : Bool
  presence : Vector Bool 12
  /-- R52: for a SLOT-LOAD, whether the slot's state was written; for a SLOT-REVOKE, whether any part landed. -/
  storeLanded : Bool
  deriving DecidableEq, Repr

/-- The two supply-warning inputs (R137). -/
inductive SupplyLine where
  | warn
  | crit
  deriving DecidableEq, Repr

/-- What a key-store write reports at its write-done event (R49). A failed write also has a store part that landed or
did not (R52): for a SLOT-LOAD whether the slot's state was written, for a SLOT-REVOKE whether any part landed. -/
inductive StoreResult where
  | success
  | failure (landed : Bool)
  deriving DecidableEq, Repr

/-- What an erase reports at its erase-done event (R150). Of a failed erase the next start-up sees whether the marker
write had succeeded. -/
inductive EraseResult where
  | success
  | failure (markerRetired : Bool)
  deriving DecidableEq, Repr

/-- The commands. -/
inductive Instr where
  /-- COLD_RESET (R155). -/
  | coldReset (inputs : ResetInputs)
  /-- SLOT_TABLE_READ_DONE (R48). -/
  | slotTableReadDone
  /-- STARTUP_FINISH (R154). -/
  | startupFinish
  /-- PRESENCE_RISE (R4). -/
  | presenceRise (b : Bay)
  /-- PRESENCE_DROP (R16). -/
  | presenceDrop (b : Bay)
  /-- SETTLE_TIMER_EXPIRY (R5). -/
  | settleTimerExpiry (b : Bay)
  /-- RECHALLENGE_TIMER_EXPIRY (R18). -/
  | rechallengeTimerExpiry (b : Bay)
  /-- RECHALLENGE_START (R19). -/
  | rechallengeStart (b : Bay)
  /-- POST_NEXT_OPERATION (R22). -/
  | postNextOperation (b : Bay)
  /-- BUS_GRANT (R28). -/
  | busGrant (n : Bus)
  /-- REST_TIMER_EXPIRY (R31). -/
  | restTimerExpiry (n : Bus)
  /-- TOKEN_REPLY_TIMEOUT (R26). -/
  | tokenReplyTimeout (n : Bus)
  /-- IDENT_READ_REPLY (R38): the reply frame's bytes as received on the bus. -/
  | identReadReply (n : Bus) (frame : List Byte)
  /-- NONCE_SEND_ACKNOWLEDGEMENT (R39). -/
  | nonceSendAcknowledgement (n : Bus) (frame : List Byte)
  /-- ANSWER_TIMER_EXPIRY (R39). -/
  | answerTimerExpiry (b : Bay)
  /-- ANSWER_FETCH_REPLY (R40). -/
  | answerFetchReply (n : Bus) (frame : List Byte)
  /-- ENGINE_DONE (R55). -/
  | engineDone
  /-- ARM_REPLY (R41). -/
  | armReply (n : Bus) (frame : List Byte)
  /-- LOAD_REPLY (R41). -/
  | loadReply (n : Bus) (frame : List Byte)
  /-- BURN_END (R41). -/
  | burnEnd (n : Bus)
  /-- CONFIRM_REPLY (R41). -/
  | confirmReply (n : Bus) (frame : List Byte)
  /-- MARK_REPLY (R43). -/
  | markReply (n : Bus) (frame : List Byte)
  /-- CHECK_READ_REPLY (R44). -/
  | checkReadReply (n : Bus) (frame : List Byte)
  /-- STORE_WRITE_DONE (R49). -/
  | storeWriteDone (r : StoreResult)
  /-- STORE_WRITE_TIMEOUT (R49); the operand as in `StoreResult.failure`. -/
  | storeWriteTimeout (landed : Bool)
  /-- SUPPLY_WARN_ASSERTED (R138). -/
  | supplyWarnAsserted
  /-- SUPPLY_CRIT_ASSERTED (R139). -/
  | supplyCritAsserted
  /-- SUPPLY_LINE_DEASSERTED (R141). -/
  | supplyLineDeasserted (l : SupplyLine)
  /-- SAVE_DEADLINE_EXPIRY (R140). -/
  | saveDeadlineExpiry
  /-- WRITER_TAKE_RECORD (R146). -/
  | writerTakeRecord
  /-- RECORD_WRITE_DONE (R146): whether write-done reports success. -/
  | recordWriteDone (ok : Bool)
  /-- RECORD_WRITE_TIMEOUT (R146). -/
  | recordWriteTimeout
  /-- HEADER_WRITE_DONE (R147): whether write-done reports success. -/
  | headerWriteDone (ok : Bool)
  /-- HEADER_WRITE_TIMEOUT (R147). -/
  | headerWriteTimeout
  /-- ERASE_DONE (R150). -/
  | eraseDone (x : Sector) (r : EraseResult)
  /-- ERASE_TIMEOUT (R150); the operand as in `EraseResult.failure`. -/
  | eraseTimeout (x : Sector) (markerRetired : Bool)
  /-- RECEIVER_GAP_TIMEOUT (R165). -/
  | receiverGapTimeout
  /-- LINK_STOP_BIT_ERROR (R165). -/
  | linkStopBitError
  /-- FRAME_CRC_MISMATCH (R166): a complete frame's body bytes and the CRC received with it. -/
  | frameCrcMismatch (body : List Byte) (crc : BitVec 16)
  /-- UNKNOWN_KIND_REQUEST (R167). -/
  | unknownKindRequest (kind tag claimed : Byte) (payload : List Byte)
  /-- REPLY_SENT (R168). -/
  | replySent
  /-- IDENT (R175). -/
  | ident (tag claimed : Byte) (payload : List Byte)
  /-- STATUS (R176). -/
  | status (tag claimed : Byte) (payload : List Byte)
  /-- BAY_QUERY (R177). -/
  | bayQuery (tag claimed : Byte) (payload : List Byte)
  /-- HISTORY_QUERY (R136). -/
  | historyQuery (tag claimed : Byte) (payload : List Byte)
  /-- NOTICES (R160). -/
  | notices (tag claimed : Byte) (payload : List Byte)
  /-- ACK_NOTICES (R161). -/
  | ackNotices (tag claimed : Byte) (payload : List Byte)
  /-- FAULTS (R163). -/
  | faults (tag claimed : Byte) (payload : List Byte)
  /-- USAGE (R66). -/
  | usage (tag claimed : Byte) (payload : List Byte)
  /-- LEVEL_SENSE (R113). -/
  | levelSense (tag claimed : Byte) (payload : List Byte)
  /-- FLUSH (R92). -/
  | flush (tag claimed : Byte) (payload : List Byte)
  /-- RELEASE (R15). -/
  | release (tag claimed : Byte) (payload : List Byte)
  /-- BAY_RESET (R17). -/
  | bayReset (tag claimed : Byte) (payload : List Byte)
  /-- RECHALLENGE (R20). -/
  | rechallenge (tag claimed : Byte) (payload : List Byte)
  /-- CONFIGURE (R172). -/
  | configure (tag claimed : Byte) (payload : List Byte)
  /-- SET_BANDS (R87). -/
  | setBands (tag claimed : Byte) (payload : List Byte)
  /-- SET_CLASS (R2). -/
  | setClass (tag claimed : Byte) (payload : List Byte)
  /-- HOLD (R88). -/
  | hold (tag claimed : Byte) (payload : List Byte)
  /-- SET_MASK (R159). -/
  | setMask (tag claimed : Byte) (payload : List Byte)
  /-- SET_LINK (R164). -/
  | setLink (tag claimed : Byte) (payload : List Byte)
  /-- LOCK_LEVEL (R171). -/
  | lockLevel (tag claimed : Byte) (payload : List Byte)
  /-- SLOT_LOAD (R50). -/
  | slotLoad (tag claimed : Byte) (payload : List Byte)
  /-- SLOT_REVOKE (R51). -/
  | slotRevoke (tag claimed : Byte) (payload : List Byte)
  /-- LINK_BYTE_RECEIVED (R165). -/
  | linkByteReceived (byte : Byte)
  deriving DecidableEq, Repr

end Sys2Proof
end

