-- ==== Sys2Proof/Machine/Bytes.lean ====
section
/-! DEFINITION. Byte order, and the three cyclic checks of the part: the 16-bit check of link frames (R166), the 8-bit
check of token frames and journal records (R180) and the 32-bit check of sector headers (12.3). -/

namespace Sys2Proof.Machine

/-- The number a list of bytes spells, high byte first (12: link and journal fields are big-endian). -/
def beNat (bs : List Byte) : Nat :=
  bs.foldl (fun n b => n * 256 + b.toNat) 0

/-- The number a list of bytes spells, low byte first (12: token fields are little-endian). -/
def leNat (bs : List Byte) : Nat :=
  beNat bs.reverse

/-- The `n` bytes of a number, high byte first. -/
def beBytes : Nat → Nat → List Byte
  | 0, _ => []
  | n + 1, v => BitVec.ofNat 8 (v / 256 ^ n) :: beBytes n v

/-- The `n` bytes of a number, low byte first. -/
def leBytes (n v : Nat) : List Byte :=
  (beBytes n v).reverse

/-- Bytes `off` to `off + n - 1` of a list. -/
def slice (bs : List Byte) (off n : Nat) : List Byte :=
  (bs.drop off).take n

/-- Byte `off` of a list, 0 beyond its end. -/
def byteAt (bs : List Byte) (off : Nat) : Byte :=
  bs.getD off 0

/-- `f` applied eight times: once for each bit of a byte. -/
def eightTimes {α : Type} (f : α → α) (x : α) : α :=
  f (f (f (f (f (f (f (f x)))))))

/-- One bit of a check that is computed most significant bit first. -/
def crcShiftLeft {w : Nat} (poly : BitVec w) (r : BitVec w) : BitVec w :=
  if r.msb then (r <<< 1) ^^^ poly else r <<< 1

/-- One bit of a check that is computed least significant bit first (reflected). -/
def crcShiftRight {w : Nat} (poly : BitVec w) (r : BitVec w) : BitVec w :=
  if r.getLsbD 0 then (r >>> 1) ^^^ poly else r >>> 1

/-- R166: polynomial x¹⁶+x¹²+x⁵+1, register starting at 0xFFFF, no reflection, not inverted. -/
def crc16 (bs : List Byte) : BitVec 16 :=
  bs.foldl (fun (r : BitVec 16) (b : Byte) => eightTimes (crcShiftLeft 0x1021#16) (r ^^^ (b.setWidth 16 <<< 8))) 0xFFFF#16

/-- R180: polynomial x⁸+x²+x+1, starting at 0x00, no reflection, not inverted. -/
def crc8 (bs : List Byte) : Byte :=
  bs.foldl (fun (r : Byte) (b : Byte) => eightTimes (crcShiftLeft 0x07#8) (r ^^^ b)) 0x00#8

/-- 12.3: polynomial 0x04C11DB7 reflected, starting at all ones, result inverted. -/
def crc32 (bs : List Byte) : BitVec 32 :=
  ~~~ bs.foldl (fun (r : BitVec 32) (b : Byte) => eightTimes (crcShiftRight 0xEDB88320#32) (r ^^^ b.setWidth 32)) 0xFFFFFFFF#32

/-- The bay a byte names, if it names one. -/
def bayOfByte (b : Byte) : Option Bay :=
  if h : b.toNat < 12 then some ⟨b.toNat, h⟩ else none

/-- The issuer slot a byte names, if it names one. -/
def slotOfByte (b : Byte) : Option SlotNo :=
  if h : b.toNat < 4 then some ⟨b.toNat, h⟩ else none

end Sys2Proof.Machine
end

