-- ==== Sys2Proof/Config.lean ====
section
/-! DEFINITION. What one KS-612 is made with, and the values the manual leaves open. Every `opaque` constant has no body:
nothing in Lean can compute it, so a claim about it holds whatever its value is. The plain constants are the numbers the
manual fixes. -/

namespace Sys2Proof.Config

/-- The answer a genuine token gives, a function of exactly the inputs R37 and R55 name: the issuer slot's secret, the
nonce, the serial, and the identity and calibration pages byte for byte. 00_scope: the manual does not specify the
algorithm (log entry 3). -/
opaque answer (secret : BitVec 256) (nonce : BitVec 128) (serial : Serial) (identityPage calibrationPage : List Byte) :
  BitVec 128

/-- The ten fresh random bytes of the `n`-th draw from the part's random source (R53; log entry 4). -/
opaque random : Nat → BitVec 80

/-- The order in which replies completed together by one event are placed (R169, R178: "in either order"; log entry 5). -/
opaque replyOrder : Nat → Nat

/-- The compute time, in ms, that an acknowledgement starts the answer timer at once the bay's calibration page has been cleared
under its NONCE-SEND by a BAY-RESET: R39 states no time for a bay without the page (log entry 22). -/
opaque lostComputeTime : Nat → Nat

/-- The design step, "fixed at manufacture" (R175; log entry 6). -/
opaque designStep : Byte

/-- The device number "written at manufacture, one to each part" (R175; log entry 6). -/
opaque deviceNumber : BitVec 64

/-- The sequence number of the first sector opened in a journal that holds no sequence number: R143 says only "one
greater than the largest sequence number in the journal" (log entry 7). -/
opaque firstSequence : BitVec 32

/-- The 32 bits a header holds for a sequence number that has outgrown 32 bits (R143; log entry 7). -/
opaque sequenceBeyond : Nat → BitVec 32

/-- The 48 bits a nonce holds for a draw number that has outgrown 48 bits (R53; log entry 7). -/
opaque drawNumberBeyond : Nat → BitVec 48

/-- Whether a write-protect byte that is neither 0 nor 1 reads as on (12.2 gives only 0 off, 1 on; log entry 8). -/
opaque writeProtectOf : Byte → Bool

/-- The issuer tag of a slot that was REVOKED while EMPTY, which R48, R50 and R175 do not state: IDENT reports it, and check 3 of R50
compares it (log entry 9). -/
opaque tagOfUnloadedSlot : Nat → BitVec 32

/-- The verdict, numbered NONE 0 to ROLLBACK 4, that a journal record's state byte replays for the codes 5 to 7, which 12.3
gives no verdict (log entry 10). -/
opaque verdictBeyond : Nat → Fin 5

/-- One quantum in fu: 100 µL is 10¹⁴ fu (00_scope, "Ink amounts and arithmetic units"). -/
def quantum : Nat := 100000000000000

/-- Half a quantum in fu, the bound of the release rounding (R78). -/
def halfQuantum : Nat := 50000000000000

/-- The bound at which overdraw, the unmetered count and debt quanta saturate (R64, R118). -/
def maxQuanta : Nat := 65535

/-- UNLIMITED, and the level "unknown" (00_scope, "Levels and allowances"). -/
def allOnes16 : Nat := 65535

/-- The bound at which the admission sequence saturates (R121). -/
def maxSequence : Nat := 4294967295

/-- The settle time in ms (R4). -/
def settleMs : Nat := 50

/-- The rest gap in ms (R31). -/
def restMs : Nat := 1

/-- The wait before a repeated ANSWER-FETCH in ms (R40). -/
def busyRepeatMs : Nat := 2

/-- The frozen pending limit in quanta (R106). -/
def frozenPendingLimit : Nat := 64

/-- The level, in per-mille, above which a DRY reading is a suspected leak (R117). -/
def leakLevel : Nat := 250

/-- The history table's size (R119). -/
def tableSize : Nat := 192

/-- The request queue's size (R168), and the number of waiting refusals the transmit list takes (R169). -/
def queueSize : Nat := 8

/-- The fault record queue's size (R162). -/
def faultQueueSize : Nat := 8

/-- The bytes of a journal sector (R143). -/
def sectorBytes : Nat := 4096

/-- The bytes of a sector's header (R143). -/
def headerBytes : Nat := 16

/-- The bytes of a sector that hold records (R143). -/
def recordArea : Nat := 4080

end Sys2Proof.Config
end

