-- ==== Sys2Proof/Machine/State.lean ====
section
/-! DEFINITION. Everything the manual gives the part as state, block by block, as plain data; the two reason types of an
outcome; and the state right after a cold reset of a part as it leaves manufacture. Counts, amounts and times are natural
numbers; bit vectors stand for what the manual treats as bits (bytes, serials, tags, nonces, answers, masks). -/

namespace Sys2Proof.Machine

/-- The model's faults: none. Every step the manual describes ends in a next state; a failed token or flash operation
is a record in the part's own fault queue (R162), not a stop of the machine. -/
inductive Fault where
  deriving DecidableEq, Repr

/-- Why the model declines a command. -/
inductive Refusal where
  /-- The command has no meaning in the model yet; raised by `exec`'s arm of that command only. Safe: nothing is claimed
  of it. -/
  | notModelled (mnemonic : String)
  deriving DecidableEq, Repr

/-! ### Token pages (R32 to R34) -/

/-- A commit mode (R82), in the order the rule lists the values. -/
inductive Mode where
  | deferred
  | through
  | frozen
  deriving DecidableEq, Repr

/-- A mark of a token's usage page (R36). -/
inductive Mark where
  | spent
  | refill
  deriving DecidableEq, Repr

/-- The three pages of a token (R6). -/
inductive Page where
  | identity
  | calibration
  | usage
  deriving DecidableEq, Repr

/-- A token band (R33): it covers while the level is at or below `bound`. -/
structure TokenBand where
  bound : Nat
  mode : Mode
  deriving DecidableEq, Repr

/-- The identity page as read (R32), with its bytes as received. -/
structure IdentityPage where
  serial : Serial
  classCode : BitVec 16
  capacity : Nat
  issuerTag : BitVec 32
  version : Byte
  bytes : List Byte
  deriving DecidableEq, Repr

/-- The calibration page as read (R33), unclamped, with its bytes as received. -/
structure CalibrationPage where
  vS : Nat
  vM : Nat
  vL : Nat
  k : Int
  vp : Nat
  programTime : Nat
  computeTime : Nat
  bands : List TokenBand
  bytes : List Byte
  deriving DecidableEq, Repr

/-- The usage page as read (R34). -/
structure UsagePage where
  index : Nat
  counter : Nat
  spent : Bool
  refill : Bool
  writeProtect : Bool
  deriving DecidableEq, Repr

/-! ### Bay Controllers (R1) -/

/-- The states of a bay (R1), in the order the rule lists them. -/
inductive BayState where
  | vacant
  | settling
  | identifying
  | challenging
  | admitted
  | quarantined
  | rejected
  | releasing
  | released
  | faulted
  deriving DecidableEq, Repr

/-- A verdict (R1, R126). -/
inductive Verdict where
  | none
  | genuine
  | refilled
  | clone
  | rollback
  deriving DecidableEq, Repr

/-- Why a bay is REJECTED (R1). -/
inductive RejectReason where
  | none
  | authFailed
  | wrongClass
  | unknownIssuer
  | clone
  | rollback
  deriving DecidableEq, Repr

/-- Whether a re-challenge is wanted, or under way (R1). -/
inductive Rechallenge where
  | idle
  | waiting
  | running
  deriving DecidableEq, Repr

/-- The bay record (R1). Its posted operation is the request of the bay's `Port`, which R25 says is the same request. -/
structure BayRec where
  state : BayState
  identityPage : Option IdentityPage
  calibrationPage : Option CalibrationPage
  usagePage : Option UsagePage
  classCode : Option (BitVec 16)
  slot : Option SlotNo
  serial : Option Serial
  verdict : Verdict
  rejectReason : RejectReason
  readAttempts : Nat
  mismatches : Nat
  commFailures : Nat
  rechallenge : Rechallenge
  /-- Milliseconds left; `none` is stopped. -/
  rechallengeTimer : Option Nat
  /-- Milliseconds left; `none` is stopped. -/
  settleTimer : Option Nat
  settled : Bool
  expectedClass : BitVec 16
  /-- Implied by R22 and R39: the token's compute time has run and the ANSWER-FETCH of the open exchange is due. -/
  fetchDue : Bool
  deriving DecidableEq, Repr

/-- A cleared bay record that keeps the expected class `c` (R1: "Clearing"). -/
def BayRec.cleared (c : BitVec 16) : BayRec where
  state := .vacant
  identityPage := none
  calibrationPage := none
  usagePage := none
  classCode := none
  slot := none
  serial := none
  verdict := .none
  rejectReason := .none
  readAttempts := 0
  mismatches := 0
  commFailures := 0
  rechallenge := .idle
  rechallengeTimer := none
  settleTimer := none
  settled := false
  expectedClass := c
  fetchDue := false

/-! ### Token Bus Controllers (R25) -/

/-- What a challenge is for (R54). -/
inductive ChallengeKind where
  | admission
  | rechallenge
  deriving DecidableEq, Repr

/-- The operation of a bus request with its arguments (2.5). -/
inductive BusOp where
  | identRead (page : Page)
  | nonceSend (kind : ChallengeKind) (nonce : BitVec 128)
  | answerFetch (kind : ChallengeKind)
  | advance (index target : Nat)
  | mark (m : Mark)
  | checkRead (index : Nat)
  deriving DecidableEq, Repr

/-- A posted request: its operation, its arguments and the attempt number the bay gave it (R25). -/
structure BusRequest where
  op : BusOp
  attempt : Nat
  deriving DecidableEq, Repr

/-- The phases of transactions and flash operations, as a fault record lists them (R162). -/
inductive Phase where
  | reply
  | acknowledgement
  | fetch
  | arm
  | load
  | burn
  | confirm
  | write
  | header
  | erase
  deriving DecidableEq, Repr

/-- The current transaction of a bus (R25). -/
structure Transaction where
  bay : Bay
  request : BusRequest
  phase : Phase
  /-- The program time in use, in ms; `none` but for an ADVANCE. -/
  programTime : Option Nat
  /-- Implied by R17, R47 and R61: the result is discarded when it reaches the bay. -/
  discarded : Bool
  deriving DecidableEq, Repr

/-- What R25 holds for each bay of a bus. -/
structure Port where
  posted : Option BusRequest
  /-- Milliseconds left; `none` is stopped. -/
  answerTimer : Option Nat
  fetchCount : Nat
  deriving DecidableEq, Repr

/-- What R25 holds once for a bus. -/
structure BusState where
  lastGranted : Bay
  current : Option Transaction
  /-- Milliseconds left; `none` is stopped. -/
  restTimer : Option Nat
  deriving DecidableEq, Repr

/-- A bay's port after cold reset (R25). -/
def Port.cleared : Port where
  posted := none
  answerTimer := none
  fetchCount := 0

/-! ### Digest Engine (R48 to R55) -/

/-- An issuer slot's state (R48). -/
inductive SlotState where
  | empty
  | enabled
  | revoked
  deriving DecidableEq, Repr

/-- An issuer slot (R48). -/
structure Slot where
  state : SlotState
  tag : Option (BitVec 32)
  secret : Option (BitVec 256)
  deriving DecidableEq, Repr

/-- An EMPTY slot (R48). -/
def Slot.emptySlot : Slot where
  state := .empty
  tag := none
  secret := none

/-- Where an exchange's engine job stands (R54). -/
inductive JobState where
  | none
  | waiting
  | computing
  | done
  deriving DecidableEq, Repr

/-- The engine's result in a context (R54). -/
inductive Expected where
  | absent
  | present (answer : BitVec 128)
  | withheld
  deriving DecidableEq, Repr

/-- The transaction failure that ended an exchange, if any (R54). -/
inductive EndCause where
  | none
  | nonceFailed
  | fetchFailed
  deriving DecidableEq, Repr

/-- A challenge context (R54); its kind is `none` while it is closed. -/
structure Context where
  kind : Option ChallengeKind
  slot : Option SlotNo
  nonce : BitVec 128
  job : JobState
  expected : Expected
  tokenAnswer : Option (BitVec 128)
  endCause : EndCause
  deriving DecidableEq, Repr

/-- A closed context: "Closing clears every field" (R54). -/
def Context.closed : Context where
  kind := none
  slot := none
  nonce := 0
  job := .none
  expected := .absent
  tokenAnswer := none
  endCause := .none

/-- A queued job with its copies (R55). -/
structure Job where
  bay : Bay
  slot : SlotNo
  nonce : BitVec 128
  serial : Serial
  identityPage : List Byte
  calibrationPage : List Byte
  deriving DecidableEq, Repr

/-- The job being computed, the answer it will give, and whether it is marked discarded (R55, R56). -/
structure Computing where
  bay : Bay
  answer : BitVec 128
  discarded : Bool
  deriving DecidableEq, Repr

/-- What a slot request writes to the key store (R50, R51). -/
inductive SlotWriteKind where
  | load (tag : BitVec 32) (secret : BitVec 256)
  | revoke
  deriving DecidableEq, Repr

/-- The key-store write in progress: the request's tag on the link, the slot and what is written (R49). -/
structure SlotWrite where
  request : Byte
  slot : SlotNo
  kind : SlotWriteKind
  deriving DecidableEq, Repr

/-- The Digest Engine. `store` is the one-time key store as the next cold reset would read it (R48, R52). -/
structure Digest where
  slots : Vector Slot 4
  slotsRead : Bool
  store : Vector Slot 4
  contexts : Vector Context 12
  queue : List Job
  computing : Option Computing
  drawNumber : Nat
  writing : Option SlotWrite
  deriving DecidableEq, Repr

/-! ### Accounting Unit (R64, R82, R102) -/

/-- The calibration copy of an account, clamped (R65). -/
structure CalibrationCopy where
  vS : Nat
  vM : Nat
  vL : Nat
  k : Int
  vp : Nat
  deriving DecidableEq, Repr

/-- Whether an account's quanta are written into its token (R64). -/
inductive Metering where
  | metered
  | unmetered
  deriving DecidableEq, Repr

/-- The commit state (R82). -/
inductive CommitState where
  | idle
  | advance
  | check
  deriving DecidableEq, Repr

/-- The drain demands held (R82, R91). -/
structure Drain where
  flush : Bool
  release : Bool
  save : Bool
  deriving DecidableEq, Repr

/-- A bay account (R64, R82). -/
structure Account where
  capacity : Nat
  calibration : Option CalibrationCopy
  committed : Nat
  pending : Nat
  inFlight : Nat
  residue : Nat
  overdraw : Nat
  unmeteredCount : Nat
  metering : Metering
  live : Bool
  bands : List TokenBand
  index : Nat
  writeProtect : Bool
  mode : Mode
  commitState : CommitState
  target : Nat
  failures : Nat
  drain : Drain
  lowNotified : Bool
  senseCount : Nat
  deriving DecidableEq, Repr

/-- An account after cold reset (R64, R82). -/
def Account.cold : Account where
  capacity := 0
  calibration := none
  committed := 0
  pending := 0
  inFlight := 0
  residue := 0
  overdraw := 0
  unmeteredCount := 0
  metering := .metered
  live := false
  bands := []
  index := 0
  writeProtect := false
  mode := .deferred
  commitState := .idle
  target := 0
  failures := 0
  drain := { flush := false, release := false, save := false }
  lowNotified := false
  senseCount := 0

/-- A mark order with the attempts made (R102). -/
structure MarkOrder where
  mark : Mark
  attempts : Nat
  deriving DecidableEq, Repr

/-! ### Refill Watch (R118, R121) -/

/-- The doubt of an ADVANCE: the counter before it and the amount it carried (R118, R122). -/
structure Doubt where
  base : Nat
  amount : Nat
  deriving DecidableEq, Repr

/-- The marks a token of a serial has been seen to carry (R118). -/
structure Marks where
  spent : Bool
  refill : Bool
  deriving DecidableEq, Repr

/-- A history entry with the table index it occupies (R118, R119). -/
structure HistoryEntry where
  index : Nat
  serial : Serial
  classCode : BitVec 16
  highWater : Nat
  marks : Marks
  retired : Bool
  lastVerdict : Verdict
  debtQuanta : Nat
  debtResidue : Nat
  doubt : Option Doubt
  lastSeen : Nat
  bay : Option Bay
  deriving DecidableEq, Repr

/-- The Refill Watch: the table, kept in increasing order of index, and the admission sequence. -/
structure RefillWatch where
  table : List HistoryEntry
  sequence : Nat
  deriving DecidableEq, Repr

/-! ### Supply Monitor (R137) -/

/-- The supply state (R137). -/
inductive SupplyState where
  | starting
  | normal
  | save
  | expired
  deriving DecidableEq, Repr

/-- The Supply Monitor. -/
structure Supply where
  state : SupplyState
  /-- Milliseconds left on the save deadline; `none` is stopped. -/
  deadline : Option Nat
  warn : Bool
  crit : Bool
  /-- The margin in use, taken at the entry to SAVE (R138). -/
  marginInUse : Nat
  deriving DecidableEq, Repr

/-! ### Retention Controller (R143 to R154) -/

/-- A sector's state (R143), in the order R176 counts them; `unclassified` is R176's "not yet classified". -/
inductive SectorState where
  | erased
  | active
  | full
  | invalid
  | failed
  | unclassified
  deriving DecidableEq, Repr

/-- What the Retention Controller knows of a sector. -/
structure SectorRec where
  state : SectorState
  /-- The sequence number it was opened with; `none` while it has none. -/
  sequence : Option Nat
  /-- Where a torn write of this sector begins (R148, R153, R155): parsing ends there; 0 is a torn header. -/
  torn : Option Nat
  /-- An erase is running; the marker as it stood before the erase began (R150). -/
  erasing : Option (BitVec 32)
  deriving DecidableEq, Repr

/-- A HISTORY record's content (R144). -/
structure HistoryRecord where
  serial : Serial
  classCode : BitVec 16
  highWater : Nat
  marks : Marks
  retired : Bool
  lastVerdict : Verdict
  lastSeen : Nat
  /-- Debt quanta and debt residue. -/
  debt : Option (Nat × Nat)
  doubt : Option Doubt
  deriving DecidableEq, Repr

/-- A journal record (R144). -/
inductive JournalRecord where
  | history (r : HistoryRecord)
  | evict (serial : Serial)
  deriving DecidableEq, Repr

/-- Where the writer took a record from (R146). -/
inductive RecordSource where
  | appendSet
  | compactionCopy
  deriving DecidableEq, Repr

/-- The writer (R146, R147): idle, writing a sector's header with a record waiting, or writing a record. -/
inductive Writer where
  | idle
  | header (x : Sector) (source : RecordSource) (r : JournalRecord)
  | record (x : Sector) (source : RecordSource) (r : JournalRecord)
  deriving DecidableEq, Repr

/-- Compaction (R149, R150): idle, copying a sector with the subjects still to copy, about to erase it but held by SAVE
or EXPIRED, or erasing it. -/
inductive Compaction where
  | idle
  | copying (x : Sector) (subjects : List Serial)
  | eraseHeld (x : Sector)
  | erasing (x : Sector)
  deriving DecidableEq, Repr

/-- The journal's mode (R143). -/
inductive JournalMode where
  | normal
  | degraded
  deriving DecidableEq, Repr

/-- Flash memory: (address, byte) pairs, addresses strictly rising, no entry equal to the blank byte 0xFF that an
unlisted address reads as (R181: blank is 0xFF). Sector `x` occupies addresses 4096·x to 4096·x+4095. -/
abbrev Memory := List Host.Cell

/-- The Retention Controller. -/
structure Journal where
  flash : Memory
  sectors : Vector SectorRec 8
  /-- The room of the ACTIVE sector; 0 with none (R143). -/
  room : Nat
  mode : JournalMode
  appendSet : List Serial
  writer : Writer
  /-- Consecutive write failures (R148). -/
  failures : Nat
  /-- The newest-record map (R149). -/
  newest : List (Serial × Sector)
  compaction : Compaction
  /-- Whether the start-up work is complete (R154). -/
  startupDone : Bool
  /-- Whether an event has put the serial of the compaction copy being written into the append set since its write began, so
  that the copy lacks the state of that event (R145, R149; log entry 31). -/
  copyStale : Bool
  deriving DecidableEq, Repr

/-! ### Notice Unit (R156 to R162) -/

/-- The notice kinds, in the order of their codes 1 to 21 (12.1). -/
inductive NoticeKind where
  | clone
  | saveEntered
  | rollback
  | bayFaulted
  | overdraw
  | saveExpired
  | authFailed
  | refill
  | journalDegraded
  | debtLost
  | spent
  | allowanceExhausted
  | commitRetry
  | levelLow
  | strayUsage
  | leakSuspect
  | rejectedOther
  | admitted
  | released
  | withdrawn
  | historyEvicted
  deriving DecidableEq, Repr

/-- A kind's source (R156): a bay set, bit b for bay b, for a bay kind; a flag for a part kind. -/
structure Source where
  bays : BitVec 12
  flag : Bool
  deriving DecidableEq, Repr

/-- Where a fault happened (R162). -/
inductive Place where
  | bus (n : Bus)
  | journal
  deriving DecidableEq, Repr

/-- The transaction kinds of a fault record, in the order R162 lists them. -/
inductive TransactionKind where
  | identRead
  | nonceSend
  | answerFetch
  | advance
  | mark
  | checkRead
  | recordWrite
  | sectorOpen
  | erase
  deriving DecidableEq, Repr

/-- The error kinds of a fault record, in the order R162 lists them. -/
inductive ErrorKind where
  | noResponse
  | frameError
  | refused
  | verifyMismatch
  | aborted
  | flashError
  | timeout
  deriving DecidableEq, Repr

/-- A fault record (R162). -/
structure FaultRecord where
  bay : Option Bay
  place : Place
  transaction : TransactionKind
  phase : Phase
  error : ErrorKind
  attempt : Nat
  detail : Nat
  deriving DecidableEq, Repr

/-- The Notice Unit. Entry `code - 1` of `sources`, and bit `code - 1` of `enables`, belong to the kind of that code. -/
structure NoticeUnit where
  sources : Vector Source 21
  enables : BitVec 21
  mask : Nat
  faults : List FaultRecord
  deriving DecidableEq, Repr

/-! ### Request Dispatcher and Link Interface (R164 to R172) -/

/-- The request kinds (11.7). -/
inductive RequestKind where
  | ident
  | status
  | bayQuery
  | historyQuery
  | notices
  | ackNotices
  | faults
  | usage
  | levelSense
  | flush
  | release
  | bayReset
  | rechallenge
  | configure
  | setBands
  | setClass
  | hold
  | setMask
  | setLink
  | lockLevel
  | slotLoad
  | slotRevoke
  deriving DecidableEq, Repr

/-- The result codes (10.6, 12.1). -/
inductive ResultCode where
  | ok
  | clamped
  | busy
  | duplicateTag
  | unknownKind
  | badLength
  | badValue
  | privilege
  | state
  | notDrawable
  | inProgress
  | saving
  | starting
  | bayOccupied
  | noEntry
  | failed
  deriving DecidableEq, Repr

/-- One bay's outcome of a FLUSH (R92), in the order the rule lists them. -/
inductive FlushOutcome where
  | nothing
  | frozen
  | drained
  | failed
  deriving DecidableEq, Repr

/-- What a queued request waits for. -/
inductive Wait where
  /-- Handed to its owner, which is acting on it. -/
  | owner
  /-- IDENT before the slot read has ended (R175). -/
  | slotRead
  /-- FLUSH of one bay (R103). -/
  | flush (b : Bay)
  /-- FLUSH for ALL: the outcome of each bay, `none` while its wait goes on (R92). -/
  | flushAll (outcomes : Vector (Option FlushOutcome) 12)
  /-- RELEASE (R15). -/
  | release (b : Bay)
  /-- RECHALLENGE joined to the bay's re-challenge (R20). -/
  | rechallenge (b : Bay)
  /-- A slot request not yet taken by the Digest Engine (R49, R179). -/
  | slotQueued
  /-- A slot request whose store write is running (R49). -/
  | slotWriting
  /-- Completed; the reply has not yet left the line (R168). -/
  | replied
  deriving DecidableEq, Repr

/-- A request queue entry (R168). -/
structure QueueEntry where
  kind : RequestKind
  tag : Byte
  level : Nat
  payload : List Byte
  wait : Wait
  deriving DecidableEq, Repr

/-- A reply on the transmit list (R169). -/
structure Reply where
  kind : Byte
  tag : Byte
  result : ResultCode
  payload : List Byte
  /-- Whether it completes a queued request, or is an immediate refusal. -/
  queued : Bool
  /-- For a SET-LINK reply, the rate that takes effect after its last byte (R164). -/
  newRate : Option Nat
  deriving DecidableEq, Repr

/-- The receiver of the Link Interface (R165) with the bytes it holds. -/
inductive Receiver where
  | hunt
  | length
  | body (len : Nat) (held : List Byte)
  | check (body : List Byte) (held : List Byte)
  deriving DecidableEq, Repr

/-- The Link Interface. -/
structure Link where
  receiver : Receiver
  rate : Nat
  /-- The reply being sent, with the rate in force when it started (R169). -/
  sending : Option (Reply × Nat)
  transmit : List Reply
  deriving DecidableEq, Repr

/-- The refill tolerance (10.7). -/
inductive Tolerance where
  | accept
  | refuse
  deriving DecidableEq, Repr

/-- A printer-controller band (R87). -/
structure PrinterBand where
  low : Nat
  high : Nat
  mode : Mode
  deriving DecidableEq, Repr

/-- The settings table of the Request Dispatcher (10.7). -/
structure Settings where
  batch : Nat
  defaultMode : Mode
  tolerance : Tolerance
  /-- Seconds; 0 is off. -/
  interval : Nat
  lowThreshold : Nat
  senseConfirm : Nat
  budget : Nat
  margin : Nat
  resume : Bool
  bands : List PrinterBand
  hold : Bool
  deriving DecidableEq, Repr

/-- The Request Dispatcher. -/
structure Dispatcher where
  queue : List QueueEntry
  settings : Settings
  strapFloor : Nat
  lockFloor : Nat
  deriving DecidableEq, Repr

/-- The settings after cold reset (10.7). -/
def Settings.default : Settings where
  batch := 4
  defaultMode := .deferred
  tolerance := .accept
  interval := 300
  lowThreshold := 150
  senseConfirm := 3
  budget := 120
  margin := 20
  resume := false
  bands := []
  hold := false

/-! ### The whole part -/

/-- The state of the part. -/
structure State where
  link : Link
  dispatcher : Dispatcher
  bays : Vector BayRec 12
  ports : Vector Port 12
  buses : Vector BusState 3
  digest : Digest
  accounts : Vector Account 12
  orders : Vector (List MarkOrder) 12
  refill : RefillWatch
  supply : Supply
  journal : Journal
  notice : NoticeUnit
  /-- The presence lines' levels as last seen (12.4). -/
  presence : Vector Bool 12
  /-- The MODEL's own field: how many free values have been used (log entry 2). -/
  free : Nat
  /-- The MODEL's own field: the commands waiting, first in, first out. -/
  pending : List Instr
  deriving DecidableEq, Repr

/-- The Digest Engine after a cold reset, before its slot read has ended; `store` survives (R48, R62). -/
def Digest.afterReset (store : Vector Slot 4) : Digest where
  slots := Vector.replicate 4 Slot.emptySlot
  slotsRead := false
  store := store
  contexts := Vector.replicate 12 Context.closed
  queue := []
  computing := none
  drawNumber := 0
  writing := none

/-- The Notice Unit after a cold reset (R157, R158, R162). -/
def NoticeUnit.afterReset : NoticeUnit where
  sources := Vector.replicate 21 { bays := 0, flag := false }
  enables := BitVec.allOnes 21
  mask := 0
  faults := []

/-- The machine right after a cold reset (8.6) of a part as it leaves manufacture: no strap present, no supply line
asserted, no cartridge seated, every issuer slot EMPTY and every journal sector blank, and so ERASED. -/
def State.reset : State where
  link := { receiver := .hunt, rate := 115200, sending := none, transmit := [] }
  dispatcher := { queue := [], settings := Settings.default, strapFloor := 2, lockFloor := 0 }
  bays := Vector.replicate 12 (BayRec.cleared 0)
  ports := Vector.replicate 12 Port.cleared
  buses := #v[{ lastGranted := 0, current := none, restTimer := none },
              { lastGranted := 4, current := none, restTimer := none },
              { lastGranted := 8, current := none, restTimer := none }]
  digest := Digest.afterReset (Vector.replicate 4 Slot.emptySlot)
  accounts := Vector.replicate 12 Account.cold
  orders := Vector.replicate 12 []
  refill := { table := [], sequence := 0 }
  supply := { state := .starting, deadline := none, warn := false, crit := false, marginInUse := 0 }
  journal := {
    flash := []
    sectors := Vector.replicate 8 { state := .erased, sequence := none, torn := none, erasing := none }
    room := 0
    mode := .normal
    appendSet := []
    writer := .idle
    failures := 0
    newest := []
    compaction := .idle
    startupDone := false
    copyStale := false }
  notice := NoticeUnit.afterReset
  presence := Vector.replicate 12 false
  free := 0
  pending := []

end Sys2Proof.Machine
end

