-- ==== Sys2Proof/Machine/Ops.lean ====
section
/-! DEFINITION. The named operations every meaning is written with: reading and changing one bay's record, account, port,
context and mark orders, one bus, one sector; flash memory; raising a notice and writing a fault record; the append set;
history entries; the request queue and the transmit list. -/

namespace Sys2Proof.Machine

/-! ### One entry of a table -/

def State.bay (s : State) (b : Bay) : BayRec := s.bays[b]
def State.account (s : State) (b : Bay) : Account := s.accounts[b]
def State.port (s : State) (b : Bay) : Port := s.ports[b]
def State.bus (s : State) (n : Bus) : BusState := s.buses[n]
def State.context (s : State) (b : Bay) : Context := s.digest.contexts[b]
def State.markOrders (s : State) (b : Bay) : List MarkOrder := s.orders[b]
def State.sector (s : State) (x : Sector) : SectorRec := s.journal.sectors[x]
def State.slot (s : State) (k : SlotNo) : Slot := s.digest.slots[k]
abbrev State.settings (s : State) : Settings := s.dispatcher.settings

def State.modBay (s : State) (b : Bay) (f : BayRec → BayRec) : State :=
  { s with bays := upd s.bays b f }

def State.modAccount (s : State) (b : Bay) (f : Account → Account) : State :=
  { s with accounts := upd s.accounts b f }

def State.modPort (s : State) (b : Bay) (f : Port → Port) : State :=
  { s with ports := upd s.ports b f }

def State.modBus (s : State) (n : Bus) (f : BusState → BusState) : State :=
  { s with buses := upd s.buses n f }

def State.modOrders (s : State) (b : Bay) (f : List MarkOrder → List MarkOrder) : State :=
  { s with orders := upd s.orders b f }

def State.modDigest (s : State) (f : Digest → Digest) : State :=
  { s with digest := f s.digest }

def State.modContext (s : State) (b : Bay) (f : Context → Context) : State :=
  s.modDigest fun d => { d with contexts := upd d.contexts b f }

def State.modJournal (s : State) (f : Journal → Journal) : State :=
  { s with journal := f s.journal }

def State.modSector (s : State) (x : Sector) (f : SectorRec → SectorRec) : State :=
  s.modJournal fun j => { j with sectors := upd j.sectors x f }

def State.modNotice (s : State) (f : NoticeUnit → NoticeUnit) : State :=
  { s with notice := f s.notice }

def State.modRefill (s : State) (f : RefillWatch → RefillWatch) : State :=
  { s with refill := f s.refill }

def State.modSupply (s : State) (f : Supply → Supply) : State :=
  { s with supply := f s.supply }

def State.modLink (s : State) (f : Link → Link) : State :=
  { s with link := f s.link }

def State.modDispatcher (s : State) (f : Dispatcher → Dispatcher) : State :=
  { s with dispatcher := f s.dispatcher }

def State.modSettings (s : State) (f : Settings → Settings) : State :=
  s.modDispatcher fun d => { d with settings := f d.settings }

/-- Apply `f` for each bay in increasing order. -/
def forBays (f : Bay → State → State) (s : State) : State :=
  allBays.foldl (fun s b => f b s) s

/-! ### Bays and buses -/

/-- The bus a bay sits on: bay b sits on token bus ⌊b/4⌋ (R24). -/
def busOf (b : Bay) : Bus := ⟨b.val / 4, by omega⟩

/-- Bay `4n + (k mod 4)` of bus `n` (R24). -/
def bayOn (n : Bus) (k : Nat) : Bay := ⟨4 * n.val + k % 4, by omega⟩

/-- Whether the bay is drawable: ADMITTED or RELEASING (R12, R15). -/
def BayRec.drawable (r : BayRec) : Bool :=
  r.state = .admitted || r.state = .releasing

/-- The serial in the bay's identity page as read; for a bay with a live account, the serial of the account (R118). -/
def State.serialRead (s : State) (b : Bay) : Option Serial :=
  (s.bay b).identityPage.map (·.serial)

/-! ### Flash memory -/

/-- What an unlisted address reads as: blank flash (R181). -/
def blankByte : Byte := 0xFF#8

/-- Read one byte of flash. -/
def Memory.read (m : Memory) (a : Nat) : Byte :=
  match m.find? (fun c => c.1 = a) with
  | some c => c.2
  | none => blankByte

/-- Write one byte of flash, keeping the canonical form. -/
def Memory.write : Memory → Nat → Byte → Memory
  | [], a, v => if v = blankByte then [] else [(a, v)]
  | c :: m, a, v =>
    if a < c.1 then (if v = blankByte then c :: m else (a, v) :: c :: m)
    else if a = c.1 then (if v = blankByte then m else (a, v) :: m)
    else c :: Memory.write m a v

/-- Write bytes at rising addresses from `a`. -/
def Memory.writeBytes : Memory → Nat → List Byte → Memory
  | m, _, [] => m
  | m, a, v :: vs => Memory.writeBytes (Memory.write m a v) (a + 1) vs

/-- Read `n` bytes at rising addresses from `a`. -/
def Memory.readBytes (m : Memory) (a n : Nat) : List Byte :=
  (List.range n).map fun i => Memory.read m (a + i)

/-- Blank every byte of a sector (R150: an erase). -/
def Memory.eraseSector (m : Memory) (x : Sector) : Memory :=
  m.filter fun c => c.1 / Config.sectorBytes != x.val

/-- Whether a whole sector reads blank (R181); in the canonical form no listed byte is blank. -/
def Memory.sectorBlank (m : Memory) (x : Sector) : Bool :=
  m.all fun c => c.1 / Config.sectorBytes != x.val

/-- The canonical form: addresses strictly rising, no entry blank. -/
def Memory.wf : Memory → Bool
  | [] => true
  | [c] => c.2 != blankByte
  | c :: d :: m => c.2 != blankByte && decide (c.1 < d.1) && Memory.wf (d :: m)

/-- The flash address of byte `off` of a sector. -/
def sectorAddr (x : Sector) (off : Nat) : Nat := Config.sectorBytes * x.val + off

/-! ### Notices and fault records -/

/-- A kind's code, 1 to 21 (12.1). -/
def NoticeKind.code : NoticeKind → Nat
  | .clone => 1
  | .saveEntered => 2
  | .rollback => 3
  | .bayFaulted => 4
  | .overdraw => 5
  | .saveExpired => 6
  | .authFailed => 7
  | .refill => 8
  | .journalDegraded => 9
  | .debtLost => 10
  | .spent => 11
  | .allowanceExhausted => 12
  | .commitRetry => 13
  | .levelLow => 14
  | .strayUsage => 15
  | .leakSuspect => 16
  | .rejectedOther => 17
  | .admitted => 18
  | .released => 19
  | .withdrawn => 20
  | .historyEvicted => 21

/-- Where a kind's source stands in the Notice Unit's tables: its code less 1 (12.1). -/
def NoticeKind.index (k : NoticeKind) : Fin 21 :=
  ⟨k.code - 1, by cases k <;> decide⟩

/-- The kinds in the order of their codes. -/
def allNotices : List NoticeKind :=
  [.clone, .saveEntered, .rollback, .bayFaulted, .overdraw, .saveExpired, .authFailed, .refill, .journalDegraded,
   .debtLost, .spent, .allowanceExhausted, .commitRetry, .levelLow, .strayUsage, .leakSuspect, .rejectedOther,
   .admitted, .released, .withdrawn, .historyEvicted]

/-- The kind a code names, if it names one. -/
def noticeOfCode (c : Nat) : Option NoticeKind :=
  allNotices.find? fun k => k.code = c

/-- A kind's fixed priority (R156). -/
def NoticeKind.priority : NoticeKind → Nat
  | .clone | .saveEntered => 7
  | .rollback | .bayFaulted | .overdraw | .saveExpired => 6
  | .authFailed | .refill | .journalDegraded | .debtLost => 5
  | .spent | .allowanceExhausted => 4
  | .commitRetry | .levelLow | .strayUsage | .leakSuspect | .rejectedOther => 3
  | .admitted | .released | .withdrawn => 2
  | .historyEvicted => 1

/-- Whether a kind concerns the part as a whole rather than bays (R156). -/
def NoticeKind.isPart : NoticeKind → Bool
  | .saveEntered | .saveExpired | .journalDegraded | .debtLost | .historyEvicted => true
  | _ => false

/-- A kind's source. -/
def State.source (s : State) (k : NoticeKind) : Source := s.notice.sources[k.index]

/-- Raise a bay kind for a bay: the bay joins the kind's bay set (R156). -/
def State.raise (s : State) (k : NoticeKind) (b : Bay) : State :=
  s.modNotice fun u =>
    { u with sources := upd u.sources k.index fun x => { x with bays := x.bays ||| (1#12 <<< b.val) } }

/-- Raise a part kind: its flag becomes set (R156). -/
def State.raisePart (s : State) (k : NoticeKind) : State :=
  s.modNotice fun u => { u with sources := upd u.sources k.index fun x => { x with flag := true } }

/-- Raise a notice kind on a condition. -/
def State.raiseIf (s : State) (p : Bool) (k : NoticeKind) (b : Bay) : State :=
  if p then s.raise k b else s

/-- A fault record joins the queue's tail; with 8 held, the oldest is removed first (R162). -/
def joinFaults (q : List FaultRecord) (r : FaultRecord) : List FaultRecord :=
  if Config.faultQueueSize ≤ q.length then q.tail ++ [r] else q ++ [r]

/-- Write a fault record (R162). -/
def State.writeFault (s : State) (r : FaultRecord) : State :=
  s.modNotice fun u => { u with faults := joinFaults u.faults r }

/-! ### The append set and the history table -/

/-- A record's serial. -/
def JournalRecord.serial : JournalRecord → Serial
  | .history r => r.serial
  | .evict x => x

/-- Whether the writer is writing a compaction copy for a serial (R146, R149). -/
def Journal.copying (j : Journal) (x : Serial) : Bool :=
  match j.writer with
  | .record _ .compactionCopy r => r.serial = x
  | _ => false

/-- An event puts a serial into the append set: it joins at the tail, unless it is there already, in which case it keeps its
place; while the journal is DEGRADED no serial joins (R145). A copy of the serial that is being written lacks the state the
event brought, and is noted as stale (R149; log entry 31). -/
def State.joinSet (s : State) (x : Serial) : State :=
  if s.journal.mode = .degraded then s
  else s.modJournal fun j =>
    { j with
      appendSet := if j.appendSet.contains x then j.appendSet else j.appendSet ++ [x]
      copyStale := j.copyStale || j.copying x }

/-- The history entry of a serial, if the table has one. -/
def State.entry (s : State) (x : Serial) : Option HistoryEntry :=
  s.refill.table.find? fun e => e.serial = x

/-- Change the history entry of a serial. -/
def State.modEntry (s : State) (x : Serial) (f : HistoryEntry → HistoryEntry) : State :=
  s.modRefill fun r => { r with table := r.table.map fun e => if e.serial = x then f e else e }

/-- Whether an entry holds debt (R118). -/
def HistoryEntry.holdsDebt (e : HistoryEntry) : Bool :=
  decide (0 < e.debtQuanta) || decide (0 < e.debtResidue)

/-- Add quanta to an amount that saturates at 65535 (R74, R75, R118). -/
def addSaturating (a n : Nat) : Nat := min (a + n) Config.maxQuanta

/-- Keep a value within bounds: "A value below its range becomes the lower bound, and a value above it the upper bound"
(R65). -/
def clampNat (lo hi v : Nat) : Nat := max lo (min hi v)

/-- The same for a signed value. -/
def clampInt (lo hi v : Int) : Int := max lo (min hi v)

/-! ### Free order -/

/-- Put `a` at the `k`-th place of a list (at its end if the list is shorter). -/
def insertAt {α : Type} : List α → Nat → α → List α
  | [], _, a => [a]
  | x :: xs, 0, a => a :: x :: xs
  | x :: xs, k + 1, a => x :: insertAt xs k a

/-- A list in an order nothing constrains: each element is put at a free place among those after it (log entry 5). -/
def freeOrder {α : Type} : Nat → List α → List α
  | _, [] => []
  | k, a :: as => insertAt (freeOrder (k + 1) as) (Config.replyOrder k % (as.length + 1)) a

/-! ### The transmit list and the request queue -/

/-- A reply is placed: it starts at once, at the rate in force, if none is being sent; else it waits at the tail of the
transmit list (R169). -/
def Link.place (l : Link) (r : Reply) : Link :=
  match l.sending with
  | none => { l with sending := some (r, l.rate) }
  | some _ => { l with transmit := l.transmit ++ [r] }

/-- Place a reply (R169). -/
def State.placeReply (s : State) (r : Reply) : State := s.modLink fun l => l.place r

/-- The replies that stand on the line in `l` and did not in `before`, in the order they were placed. -/
def Link.placedSince (l before : Link) : List Reply :=
  let waiting := l.transmit.drop before.transmit.length
  match before.sending, l.sending with
  | none, some (r, _) => r :: waiting
  | _, _ => waiting

/-- One event `f`: the replies it places, if there are several, are placed in a free order, since "two completions that come
together, from different owners, may be placed in either order" (R169; R178: "in either order"). The rules fix no order either
for the completions of one owner at one event (log entry 5). -/
def State.together (s : State) (f : State → State) : State :=
  let t := f s
  let placed := t.link.placedSince s.link
  if placed.length ≤ 1 then t
  else { t with
    link := (freeOrder t.free placed).foldl Link.place { t.link with sending := s.link.sending, transmit := s.link.transmit }
    free := t.free + placed.length }

/-- A kind code with its top bit set (R167, 11.7). -/
def replyKind (kind : Byte) : Byte := kind ||| 0x80#8

/-- Place an immediate refusal: it is not placed when 8 refusals already wait (R169). -/
def State.refuse (s : State) (kind tag : Byte) (r : ResultCode) : State :=
  if Config.queueSize ≤ (s.link.transmit.filter fun x => !x.queued).length then s
  else s.placeReply { kind := replyKind kind, tag := tag, result := r, payload := [], queued := false, newRate := none }

/-- A request kind's code (11.7). -/
def RequestKind.code : RequestKind → Byte
  | .ident => 0x01#8
  | .status => 0x02#8
  | .bayQuery => 0x03#8
  | .historyQuery => 0x04#8
  | .notices => 0x05#8
  | .ackNotices => 0x06#8
  | .faults => 0x07#8
  | .usage => 0x10#8
  | .levelSense => 0x11#8
  | .flush => 0x12#8
  | .release => 0x13#8
  | .bayReset => 0x14#8
  | .rechallenge => 0x15#8
  | .configure => 0x20#8
  | .setBands => 0x21#8
  | .setClass => 0x22#8
  | .hold => 0x23#8
  | .setMask => 0x24#8
  | .setLink => 0x25#8
  | .lockLevel => 0x26#8
  | .slotLoad => 0x30#8
  | .slotRevoke => 0x31#8

/-- The request kinds. -/
def allKinds : List RequestKind :=
  [.ident, .status, .bayQuery, .historyQuery, .notices, .ackNotices, .faults, .usage, .levelSense, .flush, .release,
   .bayReset, .rechallenge, .configure, .setBands, .setClass, .hold, .setMask, .setLink, .lockLevel, .slotLoad,
   .slotRevoke]

/-- The request kind a code names, if it names one. -/
def kindOfCode (c : Byte) : Option RequestKind :=
  allKinds.find? fun k => k.code = c

/-- What the completion of a queued request carries. -/
structure Completion where
  tag : Byte
  result : ResultCode
  payload : List Byte
  newRate : Option Nat := none
  deriving DecidableEq, Repr

/-- Change the wait of the queue entries with a tag. -/
def State.setWait (s : State) (tag : Byte) (w : Wait) : State :=
  s.modDispatcher fun d =>
    { d with queue := d.queue.map fun e => if e.tag = tag then { e with wait := w } else e }

/-- Complete a queued request: its reply is placed, and its entry stands until the reply has left (R168, R169). -/
def State.complete (s : State) (c : Completion) : State :=
  match s.dispatcher.queue.find? fun e => e.tag = c.tag with
  | none => s
  | some e =>
    (s.setWait c.tag .replied).placeReply
      { kind := replyKind e.kind.code, tag := c.tag, result := c.result, payload := c.payload, queued := true,
        newRate := c.newRate }

/-- Complete several requests. The event they belong to puts their replies into a free order (`State.together`). -/
def State.completeAll (s : State) (cs : List Completion) : State := cs.foldl State.complete s

end Sys2Proof.Machine
end

