-- ==== Sys2Proof/Machine/Flags.lean ====
section
/-! DEFINITION. The values the manual computes and does not store: remaining, level, covering bands and effective mode,
whether a commit is due, the allowance, a request's class, ATTN, the select outputs, counts of sectors, and the privilege
levels a request is judged under. -/

namespace Sys2Proof.Machine

/-! ### An account's derived values -/

/-- R80: remaining = capacity − committed − pending. -/
def Account.remaining (a : Account) : Nat := a.capacity - a.committed - a.pending

/-- R80: the level, 0xFFFF for an UNMETERED account and for no live account. -/
def Account.level (a : Account) : Nat :=
  if a.live && a.metering = .metered then 1000 * a.remaining / a.capacity else Config.allOnes16

/-- R89: how strict a mode is. -/
def Mode.rank : Mode → Nat
  | .deferred => 0
  | .through => 1
  | .frozen => 2

/-- R89: the stricter of two modes. -/
def Mode.stricter (a b : Mode) : Mode := if a.rank < b.rank then b else a

/-- R86: a token band covers while the level is at or below its bound. -/
def TokenBand.covers (a : Account) (t : TokenBand) : Bool := decide (a.level ≤ t.bound)

/-- R87: a printer-controller band covers while low ≤ remaining ≤ high. -/
def PrinterBand.covers (a : Account) (p : PrinterBand) : Bool :=
  decide (p.low ≤ a.remaining) && decide (a.remaining ≤ p.high)

/-- R89: the candidates, the modes of every band that covers. -/
def candidateModes (set : Settings) (a : Account) : List Mode :=
  (a.bands.filter (·.covers a)).map (·.mode) ++ (set.bands.filter (·.covers a)).map (·.mode)

/-- R89: the effective mode. -/
def effectiveMode (set : Settings) (a : Account) : Mode :=
  if set.hold || a.writeProtect then .frozen
  else match candidateModes set a with
    | [] => set.defaultMode
    | m :: ms => ms.foldl Mode.stricter m

/-- Whether any drain demand is set (R82). -/
def Drain.any (d : Drain) : Bool := d.flush || d.release || d.save

/-- R93: a commit is due. -/
def commitDue (set : Settings) (r : BayRec) (a : Account) : Bool :=
  a.live && a.metering = .metered && r.drawable && a.mode != .frozen && a.commitState = .idle && decide (0 < a.pending) &&
  (a.mode = .through || decide (set.batch ≤ a.pending) || a.drain.any)

/-- R105, R106: the allowance of a bay. -/
def allowanceOf (r : BayRec) (a : Account) : Nat :=
  if r.state = .admitted then
    match a.metering with
    | .unmetered => Config.allOnes16
    | .metered =>
      if a.mode = .frozen then min a.remaining (Config.frozenPendingLimit - a.pending) else a.remaining
  else 0

/-- The allowance of a bay now. -/
def State.allowance (s : State) (b : Bay) : Nat := allowanceOf (s.bay b) (s.account b)

/-- The level of a bay now (R80). -/
def State.level (s : State) (b : Bay) : Nat := (s.account b).level

/-- Whether a bay holds a live METERED account. -/
def Account.liveMetered (a : Account) : Bool := a.live && a.metering = .metered

/-! ### The buses -/

/-- R27: the class of a posted request, read from the request and the drain demands of its bay's account. -/
def requestClass (a : Account) (q : BusRequest) : Nat :=
  match q.op with
  | .checkRead _ => 1
  | .advance _ _ => if a.drain.save then 2 else 3
  | .mark _ => 3
  | .identRead _ => 4
  | .nonceSend .admission _ => 4
  | .answerFetch .admission => 4
  | .nonceSend .rechallenge _ => 5
  | .answerFetch .rechallenge => 5

/-- The transaction kind of an operation (R45). -/
def BusOp.kind : BusOp → TransactionKind
  | .identRead _ => .identRead
  | .nonceSend _ _ => .nonceSend
  | .answerFetch _ => .answerFetch
  | .advance _ _ => .advance
  | .mark _ => .mark
  | .checkRead _ => .checkRead

/-- R28: a bus is free when it has no transaction in progress and its rest timer is stopped. -/
def BusState.free (u : BusState) : Bool := u.current.isNone && u.restTimer.isNone

/-- R24: a bay's select output, asserted for the whole tenure of its transaction. -/
def State.selected (s : State) (b : Bay) : Bool :=
  match (s.bus (busOf b)).current with
  | some t => t.bay = b
  | none => false

/-- Whether a transaction of the bay is in progress on its bus. -/
def State.inProgress (s : State) (b : Bay) : Bool := s.selected b

/-- The kind of the posted operation of a bay (R1, R25). -/
def State.postedKind (s : State) (b : Bay) : Option TransactionKind :=
  (s.port b).posted.map (·.op.kind)

/-! ### The supply -/

/-- Whether the Supply Monitor is in SAVE or EXPIRED. -/
def Supply.saving (p : Supply) : Bool := p.state = .save || p.state = .expired

/-! ### Notices -/

/-- R156: whether a kind's source is set. -/
def State.sourceSet (s : State) (k : NoticeKind) : Bool :=
  if k.isPart then (s.source k).flag else (s.source k).bays != 0

/-- R157: a kind's enable. -/
def State.enabled (s : State) (k : NoticeKind) : Bool := s.notice.enables.getLsbD k.index.val

/-- R157: a kind is pending while its source is set and its enable is on. -/
def State.pendingNotice (s : State) (k : NoticeKind) : Bool := s.sourceSet k && s.enabled k

/-- R158: whether ATTN is asserted. -/
def State.attn (s : State) : Bool :=
  allNotices.any fun k =>
    (s.pendingNotice k && decide (s.notice.mask < k.priority)) || (k.priority = 7 && s.sourceSet k)

/-! ### Privilege (R170, 11.7) -/

/-- R170: the effective level of a request, the numerically highest of the claimed level (at most 2), the strap floor and
the lock floor. -/
def effectiveLevel (d : Dispatcher) (claimed : Byte) : Nat :=
  max (min claimed.toNat 2) (max d.strapFloor d.lockFloor)

/-- R170: the strap floor of the two straps. -/
def strapFloorOf (factory service : Bool) : Nat :=
  if factory then 0 else if service then 1 else 2

/-- The level a kind requires (11.7). -/
def RequestKind.level : RequestKind → Nat
  | .ident | .status | .bayQuery | .historyQuery | .notices | .ackNotices | .faults => 2
  | .usage | .levelSense | .flush | .release => 2
  | .bayReset => 1
  | .rechallenge => 2
  | .configure | .setBands | .setClass | .hold => 1
  | .setMask | .setLink | .lockLevel => 2
  | .slotLoad | .slotRevoke => 0

/-- The payload length of a kind whose payload has a fixed length (R167, R173, 12.1). -/
def RequestKind.fixedLength : RequestKind → Option Nat
  | .ident | .status | .notices => some 0
  | .bayQuery | .faults | .flush | .release | .bayReset | .rechallenge | .hold | .lockLevel | .slotRevoke => some 1
  | .historyQuery => some 8
  | .configure | .setClass => some 3
  | .setMask | .setLink => some 4
  | .slotLoad => some 37
  | .ackNotices | .usage | .levelSense | .setBands => none

/-! ### The journal -/

/-- How many sectors are in a state (R176). -/
def State.sectorCount (s : State) (t : SectorState) : Nat :=
  (allSectors.filter fun x => (s.sector x).state = t).length

/-- The ACTIVE sector, if any (R143). -/
def State.activeSector (s : State) : Option Sector :=
  allSectors.find? fun x => (s.sector x).state = .active

end Sys2Proof.Machine
end

