-- ==== Sys2Proof/Machine/Waits.lean ====
section
/-! DEFINITION. Requests that wait on a bay: how an event at the bay completes them (R15, R20, R60, R61, R92, R103, R178).
The replies that one event places are put into a free order by that event (`State.together`: R169, R178; log entry 5). -/

namespace Sys2Proof.Machine

/-- What an event at a bay does to the requests waiting on it: the outcome of a FLUSH, the results of a RELEASE and of a
RECHALLENGE; `none` leaves that kind waiting. -/
structure Ending where
  flush : Option FlushOutcome := none
  release : Option ResultCode := none
  rechallenge : Option ResultCode := none
  deriving DecidableEq, Repr

/-- R103: the result a single-bay FLUSH completes with. -/
def FlushOutcome.result : FlushOutcome → ResultCode
  | .nothing => .ok
  | .drained => .ok
  | .frozen => .state
  | .failed => .failed

/-- R92: the result of a FLUSH for ALL: OK when no outcome is FAILED or FROZEN. -/
def flushAllResult (os : List FlushOutcome) : ResultCode :=
  if os.any fun o => o = .failed || o = .frozen then .failed else .ok

/-- R92: the outcome's number, in the order the rule lists them (12.1). -/
def FlushOutcome.code : FlushOutcome → Byte
  | .nothing => 0
  | .frozen => 1
  | .drained => 2
  | .failed => 3

/-- A bay state's number (R1, 12.1). -/
def BayState.code : BayState → Byte
  | .vacant => 0
  | .settling => 1
  | .identifying => 2
  | .challenging => 3
  | .admitted => 4
  | .quarantined => 5
  | .rejected => 6
  | .releasing => 7
  | .released => 8
  | .faulted => 9

/-- A bay number as a byte. -/
def bayByte (b : Bay) : Byte := BitVec.ofNat 8 b.val

/-- 11.4: the reply of a FLUSH for one bay: the bay and its pending at completion. -/
def flushReply (s : State) (b : Bay) : List Byte := bayByte b :: beBytes 2 (s.account b).pending

/-- 11.4: the reply of a RELEASE: the bay and its state at completion. -/
def releaseReply (s : State) (b : Bay) : List Byte := [bayByte b, (s.bay b).state.code]

/-- 11.4: the reply of a RECHALLENGE: the bay, its state, challenge mismatches and communication failures. -/
def rechallengeReply (s : State) (b : Bay) : List Byte :=
  [bayByte b, (s.bay b).state.code, BitVec.ofNat 8 (s.bay b).mismatches, BitVec.ofNat 8 (s.bay b).commFailures]

/-- R92, R103: a FLUSH for ALL records a bay's outcome. -/
def Wait.record (b : Bay) (o : FlushOutcome) : Wait → Wait
  | .flushAll os => .flushAll (upd os b fun x => some (x.getD o))
  | w => w

/-- The completion an event at bay `b` gives a queue entry, if it completes it. -/
def waitEnding (s : State) (b : Bay) (e : Ending) (q : QueueEntry) : Option Completion :=
  match q.wait with
  | .flush c =>
    if c = b then e.flush.map fun o => { tag := q.tag, result := o.result, payload := flushReply s b } else none
  | .flushAll os =>
    if e.flush.isSome && os.toList.all Option.isSome then
      let outcomes := os.toList.filterMap id
      some { tag := q.tag, result := flushAllResult outcomes, payload := outcomes.map FlushOutcome.code }
    else none
  | .release c =>
    if c = b then e.release.map fun r => { tag := q.tag, result := r, payload := releaseReply s b } else none
  | .rechallenge c =>
    if c = b then e.rechallenge.map fun r => { tag := q.tag, result := r, payload := rechallengeReply s b } else none
  | _ => none

/-- Give every waiting FLUSH for ALL the outcome of bay `b`. -/
def State.recordFlush (s : State) (b : Bay) (e : Ending) : State :=
  match e.flush with
  | none => s
  | some o => s.modDispatcher fun d => { d with queue := d.queue.map fun q => { q with wait := q.wait.record b o } }

/-- Complete what an event at bay `b` completes, with replies built once the event has been applied (R178). -/
def State.settleWaits (s : State) (b : Bay) (e : Ending) : State :=
  let s := s.recordFlush b e
  s.completeAll (s.dispatcher.queue.filterMap (waitEnding s b e))

/-- R103, R15, R60: the bay has left the drawable states otherwise than by its release drain. -/
def failedEnding : Ending := { flush := some .failed, release := some .failed, rechallenge := some .failed }

end Sys2Proof.Machine
end

