-- ==== Sys2Proof/Machine/Accounting.lean ====
section
/-! DEFINITION. The Accounting Unit: the stages by which drop counts become quanta (chapter 4), the effective mode's
recomputation (R90), the low-level test (R111), the allowance check (R108), the account's opening (R64, R65, R77, R83) and
the figures a closing account leaves (R84). -/

namespace Sys2Proof.Machine

/-! ### Stages 1 to 6 -/

/-- A USAGE entry (R67). `bay` is the byte as carried; `temperature` is T, with −128 meaning none. -/
structure UsageEntry where
  bay : Byte
  small : Nat
  medium : Nat
  large : Nat
  spit : Nat
  purges : Nat
  temperature : Int
  deriving DecidableEq, Repr

/-- R110: whether an entry carries drawn ink. -/
def UsageEntry.drawn (e : UsageEntry) : Bool :=
  decide (0 < e.small) || decide (0 < e.medium) || decide (0 < e.large) || decide (0 < e.spit) || decide (0 < e.purges)

/-- R68: stage 1, the raw volume in vu. -/
def rawVolume (c : CalibrationCopy) (e : UsageEntry) : Nat :=
  e.small * c.vS + e.medium * c.vM + e.large * c.vL + e.spit * c.vM

/-- R69: stage 2, the temperature factor in ten-thousandths. -/
def temperatureFactor (k t : Int) : Nat :=
  if t = -128 then 10000
  else (clampInt 8000 12000 (10000 + k * (clampInt 10 60 t - 25))).toNat

/-- R70: stage 3, the corrected volume in fu. -/
def correctedVolume (c : CalibrationCopy) (e : UsageEntry) : Nat :=
  rawVolume c e * temperatureFactor c.k e.temperature

/-- R71: stage 4, the purge volume in fu. -/
def purgeVolume (c : CalibrationCopy) (e : UsageEntry) : Nat :=
  e.purges * c.vp * 1000000000

/-- R72: stage 5, the accumulator. -/
def accumulator (residue : Nat) (c : CalibrationCopy) (e : UsageEntry) : Nat :=
  residue + correctedVolume c e + purgeVolume c e

/-- R73: stage 6, the whole quanta of an accumulator. -/
def quantaOf (acc : Nat) : Nat := acc / Config.quantum

/-- R73: stage 6, the new residue. -/
def residueOf (acc : Nat) : Nat := acc % Config.quantum

/-! ### Stage 7 (R74, R75) -/

/-- R74, R75: stage 7 with `n` quanta. The room of a METERED account is its remaining. -/
def Account.stage7 (a : Account) (n : Nat) : Account :=
  match a.metering with
  | .metered =>
    let laid := min n a.remaining
    { a with pending := a.pending + laid, overdraw := addSaturating a.overdraw (n - laid) }
  | .unmetered => { a with unmeteredCount := addSaturating a.unmeteredCount n }

/-- R108: compare the bay's allowance before and after an event at its account. -/
def State.allowanceChecked (s : State) (b : Bay) (f : State → State) : State :=
  let t := f s
  t.raiseIf ((t.bay b).state = .admitted && decide (0 < s.allowance b) && t.allowance b = 0) .allowanceExhausted b

/-- R90: recompute an account's effective mode. On entering FROZEN the FLUSH demand clears and the FLUSH requests waiting
complete with STATE (R103). -/
def State.recomputeMode (s : State) (b : Bay) : State :=
  let a := s.account b
  let m := effectiveMode s.settings a
  if m = a.mode then s
  else if m = .frozen then
    (s.modAccount b fun a => { a with mode := m, drain := { a.drain with flush := false } }).settleWaits b
      { flush := some .frozen }
  else s.modAccount b fun a => { a with mode := m }

/-- R90, R108: a recomputation that is an event of its own. -/
def State.recomputeModeEvent (s : State) (b : Bay) : State :=
  s.allowanceChecked b fun s => s.recomputeMode b

/-- R90: recompute every live account, in increasing bay order. -/
def State.recomputeAllModes (s : State) : State :=
  forBays (fun b s => if (s.account b).live then s.recomputeModeEvent b else s) s

/-- R111: the low-level test. -/
def State.lowTest (s : State) (b : Bay) : State :=
  let a := s.account b
  if (s.bay b).drawable && a.liveMetered && !a.lowNotified && decide (a.level ≤ s.settings.lowThreshold) then
    (s.modAccount b fun a => { a with lowNotified := true }).raise .levelLow b
  else s

/-- Stage 7 on a bay's account, raising OVERDRAW when the overdraw goes from 0 to above 0 (R74). -/
def State.layQuanta (s : State) (b : Bay) (n : Nat) : State :=
  let a := s.account b
  (s.modAccount b (·.stage7 n)).raiseIf (a.overdraw = 0 && decide (0 < (a.stage7 n).overdraw)) .overdraw b

/-- R76: steps 1 and 3 after stage 7. Step 2, the examination for a commit start, touches nothing that step 3 reads or writes:
within a USAGE it is made after each entry (`State.examine`), and after every other event whether a commit is due is read when
the bay chooses its next operation (R93, R22; log entry 14). -/
def State.afterStage7 (s : State) (b : Bay) (remainingBefore : Nat) : State :=
  let s := if (s.account b).remaining = remainingBefore then s else s.recomputeMode b
  s.lowTest b

/-- Stage 7 with the steps of R76 and the allowance check of R108. -/
def State.applyQuanta (s : State) (b : Bay) (n : Nat) : State :=
  s.allowanceChecked b fun s => (s.layQuanta b n).afterStage7 b (s.account b).remaining

/-- Set an account's residue. -/
def State.setResidue (s : State) (b : Bay) (r : Nat) : State :=
  s.modAccount b fun a => { a with residue := r }

/-- Add quanta to an account's overdraw, raising OVERDRAW when it goes from 0 to above 0 (R129, R133). -/
def State.addOverdraw (s : State) (b : Bay) (n : Nat) : State :=
  let o := (s.account b).overdraw
  (s.modAccount b fun a => { a with overdraw := addSaturating o n }).raiseIf
    (o = 0 && decide (0 < addSaturating o n)) .overdraw b

/-- Take a residue into an account, extracting whole quanta as stage 6 does, and lay `n` quanta plus those extracted
(R77, R133). -/
def State.takeDebt (s : State) (b : Bay) (n r : Nat) : State :=
  let sum := (s.account b).residue + r
  (s.setResidue b (residueOf sum)).applyQuanta b (n + quantaOf sum)

/-! ### One accounted entry (R67) -/

/-- The accumulator an entry gives a bay's account; an account without a calibration copy (none that is live) gives its
residue. -/
def Account.accumulate (a : Account) (e : UsageEntry) : Nat :=
  match a.calibration with
  | some c => accumulator a.residue c e
  | none => a.residue

/-- R67, R73 to R76: process an accounted entry. -/
def State.accountEntry (s : State) (b : Bay) (e : UsageEntry) : State :=
  let acc := (s.account b).accumulate e
  (s.setResidue b (residueOf acc)).applyQuanta b (quantaOf acc)

/-! ### Opening (R64, R65, R82, R83) -/

/-- R65: the calibration copy, clamped. -/
def CalibrationPage.copy (c : CalibrationPage) : CalibrationCopy where
  vS := clampNat 50 10000 c.vS
  vM := clampNat 50 10000 c.vM
  vL := clampNat 50 10000 c.vL
  k := clampInt (-100) 100 c.k
  vp := c.vp

/-- R64, R82: the fields of an account at opening, its mode not yet decided. -/
def Account.opened (i : IdentityPage) (c : CalibrationPage) (u : UsagePage) (m : Metering) (save : Bool) : Account :=
  { Account.cold with
    capacity := i.capacity
    calibration := some c.copy
    committed := u.counter
    metering := m
    live := true
    bands := c.bands
    index := u.index
    writeProtect := u.writeProtect
    drain := { flush := false, release := false, save := save } }

/-- R83: a bay's account opens, from the pages as read, with debt `dq` quanta and `dr` fu handed over. A METERED account
takes the debt as R77 states; an UNMETERED account receives the debt quanta as overdraw (R129). -/
def State.openAccount (s : State) (b : Bay) (m : Metering) (dq dr : Nat) : State :=
  match (s.bay b).identityPage, (s.bay b).calibrationPage, (s.bay b).usagePage with
  | some i, some c, some u =>
    let a := Account.opened i c u m (m = .metered && s.supply.saving)
    let s := s.modAccount b fun _ => { a with mode := effectiveMode s.settings a }
    let s := match m with
      | .metered => s.takeDebt b dq dr
      | .unmetered => s.addOverdraw b dq
    s.raiseIf ((s.bay b).state = .admitted && s.allowance b = 0) .allowanceExhausted b
  | _, _, _ => s

/-! ### Closing (R84) -/

/-- What a closing account hands to the Refill Watch (R84, R132). -/
structure Liability where
  pending : Nat
  residue : Nat
  doubt : Option Doubt
  deriving DecidableEq, Repr

/-- R84: the liability of an account. -/
def Account.liability (a : Account) : Liability where
  pending := a.pending
  residue := a.residue
  doubt := if 0 < a.inFlight then some { base := a.committed, amount := a.inFlight } else none

end Sys2Proof.Machine
end

