-- ==== Sys2Proof/Machine/Operands.lean ====
section
/-! DEFINITION. The operand forms: a token's reply frame and the pages it carries (12.2, R26, R32 to R34, R180), and the
payloads of the requests (12.1). -/

namespace Sys2Proof.Machine

/-! ### Token reply frames -/

/-- The statuses of a reply frame (2.2). -/
inductive Status where
  | ok
  | refused
  | already
  | busy
  deriving DecidableEq, Repr

/-- The status a byte codes, if it codes one (12.2). -/
def statusOf (b : Byte) : Option Status :=
  if b = 0x00 then some .ok
  else if b = 0x01 then some .refused
  else if b = 0x02 then some .already
  else if b = 0x03 then some .busy
  else none

/-- A reply frame split into status and data: `none` when its check or its length is wrong (R180). The length of the data
of an OK reply is judged with the command it answers. -/
def splitReply (frame : List Byte) : Option (Status × List Byte) :=
  match frame with
  | [] => none
  | st :: rest =>
    match rest.getLast? with
    | none => none
    | some check =>
      let data := rest.dropLast
      if crc8 (st :: data) = check then
        match statusOf st with
        | some .ok => some (.ok, data)
        | some q => if data.isEmpty then some (q, []) else none
        | none => none
      else none

/-- What R26 makes of a reply: the phase succeeds with its data, the token is BUSY in a fetch phase, or the phase fails. -/
inductive Judged (α : Type) where
  | good (a : α)
  | busy
  | bad (e : ErrorKind)
  deriving DecidableEq, Repr

/-- R26: judge a reply frame. `fetch` says that the phase is the fetch of an ANSWER-FETCH, `mark` that the command is a MARK,
`content` reads the data of an OK reply and is `none` where its length or content fails. -/
def judgeReply {α : Type} (fetch : Bool) (mark : Option α) (content : List Byte → Option α) (frame : List Byte) : Judged α :=
  match splitReply frame with
  | none => .bad .frameError
  | some (.refused, _) => .bad .refused
  | some (.busy, _) => if fetch then .busy else .bad .noResponse
  | some (.already, _) => match mark with | some a => .good a | none => .bad .frameError
  | some (.ok, data) => match content data with | some a => .good a | none => .bad .frameError

/-- The content of a reply that carries no data. -/
def noData (data : List Byte) : Option Unit := if data.isEmpty then some () else none

/-- The content of a reply that carries a counter (12.2). -/
def counterData (data : List Byte) : Option Nat := if data.length = 2 then some (leNat data) else none

/-- The content of a reply that carries a 16-byte answer (12.2), byte 0 the most significant as in a nonce. -/
def answerData (data : List Byte) : Option (BitVec 128) :=
  if data.length = 16 then some (BitVec.ofNat 128 (beNat data)) else none

/-! ### Pages -/

/-- A mode byte (12.1: DEFERRED 0, THROUGH 1, FROZEN 2). -/
def modeOfByte (b : Byte) : Option Mode :=
  if b = 0 then some .deferred else if b = 1 then some .through else if b = 2 then some .frozen else none

/-- R32: the identity page; a capacity of 0 fails its content check. -/
def readIdentityPage (d : List Byte) : Option IdentityPage :=
  if d.length = 17 && decide (0 < leNat (slice d 10 2)) then
    some {
      serial := BitVec.ofNat 64 (leNat (slice d 0 8))
      classCode := BitVec.ofNat 16 (leNat (slice d 8 2))
      capacity := leNat (slice d 10 2)
      issuerTag := BitVec.ofNat 32 (leNat (slice d 12 4))
      version := byteAt d 16
      bytes := d }
  else none

/-- R33: token bands, each a bound of 0 to 1000 and a mode; `none` where one fails its check. -/
def readBands : Nat → List Byte → Option (List TokenBand)
  | 0, _ => some []
  | n + 1, d =>
    match modeOfByte (byteAt d 2), readBands n (d.drop 3) with
    | some m, some bs => if leNat (slice d 0 2) ≤ 1000 then some ({ bound := leNat (slice d 0 2), mode := m } :: bs) else none
    | _, _ => none

/-- R33, R180: the calibration page. -/
def readCalibrationPage (d : List Byte) : Option CalibrationPage :=
  let count := (byteAt d 12).toNat
  if decide (13 ≤ d.length) && decide (count ≤ 4) && d.length = 13 + 3 * count then
    match readBands count (d.drop 13) with
    | some bs =>
      some {
        vS := leNat (slice d 0 2)
        vM := leNat (slice d 2 2)
        vL := leNat (slice d 4 2)
        k := (BitVec.ofNat 16 (leNat (slice d 6 2))).toInt
        vp := leNat (slice d 8 2)
        programTime := (byteAt d 10).toNat
        computeTime := (byteAt d 11).toNat
        bands := bs
        bytes := d }
    | none => none
  else none

/-- An on-or-off byte of the usage page: 0 off, 1 on; any other value is left open (12.2; log entry 8). -/
def writeProtectByte (b : Byte) : Bool :=
  if b = 0 then false else if b = 1 then true else Config.writeProtectOf b

/-- R34: the usage page, checked against the capacity of the identity page as read. -/
def readUsagePage (capacity : Nat) (d : List Byte) : Option UsagePage :=
  if d.length = 5 && decide ((byteAt d 0).toNat ≤ 15) && decide (leNat (slice d 1 2) ≤ capacity) then
    some {
      index := (byteAt d 0).toNat
      counter := leNat (slice d 1 2)
      spent := (byteAt d 3).getLsbD 0
      refill := (byteAt d 3).getLsbD 1
      writeProtect := writeProtectByte (byteAt d 4) }
  else none

/-- A page as an IDENT-READ brings it. -/
inductive PageContent where
  | identity (p : IdentityPage)
  | calibration (p : CalibrationPage)
  | usage (p : UsagePage)
  deriving DecidableEq, Repr

/-- The content check of a page (R32 to R34); `capacity` is the identity page's as read. -/
def readPage (page : Page) (capacity : Nat) (d : List Byte) : Option PageContent :=
  match page with
  | .identity => (readIdentityPage d).map .identity
  | .calibration => (readCalibrationPage d).map .calibration
  | .usage => (readUsagePage capacity d).map .usage

/-! ### Request payloads (12.1) -/

/-- A list cut into its first `n` elements of `size` bytes each. -/
def elements (size : Nat) : Nat → List Byte → List (List Byte)
  | 0, _ => []
  | n + 1, d => d.take size :: elements size n (d.drop size)

/-- A payload that is a variable list: a one-byte count and that many elements of `size` bytes. `none` when the count lies
outside `lo` to `hi` or the length does not agree with it. -/
def readList (size lo hi : Nat) (payload : List Byte) : Option (List (List Byte)) :=
  match payload with
  | [] => none
  | c :: rest =>
    if decide (lo ≤ c.toNat) && decide (c.toNat ≤ hi) && rest.length = size * c.toNat then some (elements size c.toNat rest)
    else none

/-- A USAGE entry's 19 bytes (12.1). -/
def readUsageEntry (d : List Byte) : UsageEntry where
  bay := byteAt d 0
  small := beNat (slice d 1 4)
  medium := beNat (slice d 5 4)
  large := beNat (slice d 9 4)
  spit := beNat (slice d 13 4)
  purges := (byteAt d 17).toNat
  temperature := (byteAt d 18).toInt

/-- A level-sense reading (6.5). -/
inductive Reading where
  | dry
  | low
  | present
  deriving DecidableEq, Repr

/-- A reading byte (12.1: DRY 0, LOW 1, PRESENT 2). -/
def readingOfByte (b : Byte) : Option Reading :=
  if b = 0 then some .dry else if b = 1 then some .low else if b = 2 then some .present else none

/-- A LEVEL-SENSE pair; `none` where its bay or its reading names none (R113). -/
def readPair (d : List Byte) : Option (Bay × Reading) :=
  match bayOfByte (byteAt d 0), readingOfByte (byteAt d 1) with
  | some b, some r => some (b, r)
  | _, _ => none

/-- A printer-controller band's 5 bytes; `none` where its mode is none of the three or its low bound is above its high bound
(R87). -/
def readPrinterBand (d : List Byte) : Option PrinterBand :=
  match modeOfByte (byteAt d 4) with
  | some m =>
    if beNat (slice d 0 2) ≤ beNat (slice d 2 2) then
      some { low := beNat (slice d 0 2), high := beNat (slice d 2 2), mode := m }
    else none
  | none => none

/-- An ACK-NOTICES item: a kind and the bays of its bay set; `none` where the code names no kind or a bay above 11 is named
(R161). R161 does not use the bay set of a part kind's item, and does not say whether bits 12 to 15 of that set name bays above 11:
here they do, whatever the kind, the model's choice (log entry 47). -/
def readAckItem (d : List Byte) : Option (NoticeKind × BitVec 12) :=
  match noticeOfCode (byteAt d 0).toNat with
  | some k => if beNat (slice d 1 2) < 4096 then some (k, BitVec.ofNat 12 (beNat (slice d 1 2))) else none
  | none => none

/-- A yes-or-no or on-or-off byte (12.1). -/
def boolOfByte (b : Byte) : Option Bool :=
  if b = 0 then some false else if b = 1 then some true else none

/-- Every element of a list, or none if one is missing. -/
def allSome {α : Type} : List (Option α) → Option (List α)
  | [] => some []
  | none :: _ => none
  | some a :: rest => (allSome rest).map (a :: ·)

end Sys2Proof.Machine
end

