-- ==== Sys2Proof/Machine/Refill.lean ====
section
/-! DEFINITION. The Refill Watch: the history table and its replacement (7.1, 7.3), the identity handover (7.2), the
verdict (7.4), the movement of liability (7.5), the reports it takes (R134) and the reading the Retention Controller makes
of an entry (R135). -/

namespace Sys2Proof.Machine

/-! ### The table (R118, R119) -/

/-- R119: an entry is pinned while its bay field names a bay or its serial stands in an identity page as read. -/
def State.pinned (s : State) (e : HistoryEntry) : Bool :=
  e.bay.isSome || allBays.any fun b => s.serialRead b = some e.serial

/-- R119: the lowest free table index. -/
def lowestFree (t : List HistoryEntry) : Nat :=
  ((List.range Config.tableSize).find? fun i => t.all fun e => e.index != i).getD Config.tableSize

/-- Put an entry into the table, which stands in increasing order of index. -/
def insertEntry (e : HistoryEntry) : List HistoryEntry → List HistoryEntry
  | [] => [e]
  | f :: t => if e.index < f.index then e :: f :: t else f :: insertEntry e t

/-- R118: an entry at its creation. -/
def HistoryEntry.created (i : Nat) (x : Serial) (c : BitVec 16) : HistoryEntry where
  index := i
  serial := x
  classCode := c
  highWater := 0
  marks := { spent := false, refill := false }
  retired := false
  lastVerdict := .none
  debtQuanta := 0
  debtResidue := 0
  doubt := none
  lastSeen := 0
  bay := none

/-! ### Replacement (R125) -/

/-- R125: the first preference. -/
def preferFirst (e : HistoryEntry) : Bool := !e.holdsDebt && e.doubt.isNone && !e.retired

/-- R125: the second preference. An entry that holds a doubt and no debt "falls in none of the three". -/
def preferSecond (e : HistoryEntry) : Bool := e.retired && !e.holdsDebt && e.doubt.isNone

/-- The entry with the smallest last seen, and among equals the lowest index: the first such in a list in index order. -/
def oldestOf : List HistoryEntry → Option HistoryEntry
  | [] => none
  | e :: t =>
    match oldestOf t with
    | none => some e
    | some f => if f.lastSeen < e.lastSeen then some f else some e

/-- R125: the entry replacement removes. -/
def State.victim (s : State) : Option HistoryEntry :=
  let free := s.refill.table.filter fun e => !s.pinned e
  (oldestOf (free.filter preferFirst)).orElse fun _ =>
  (oldestOf (free.filter preferSecond)).orElse fun _ =>
  (oldestOf (free.filter (·.holdsDebt))).orElse fun _ =>
  oldestOf free

/-- R125: remove an entry. -/
def State.evict (s : State) (e : HistoryEntry) : State :=
  let s := (s.modRefill fun r => { r with table := r.table.filter fun f => f.serial != e.serial }).joinSet e.serial
  let s := s.raisePart .historyEvicted
  if e.holdsDebt then s.raisePart .debtLost else s

/-- R125: make room for a new entry if the table is full. -/
def State.makeRoom (s : State) : State :=
  if s.refill.table.length < Config.tableSize then s
  else match s.victim with
    | some e => s.evict e
    | none => s

/-- R120, step 1: create the entry of a serial, removing one first if the table is full. -/
def State.createEntry (s : State) (x : Serial) (c : BitVec 16) : State :=
  let s := s.makeRoom
  (s.modRefill fun r => { r with table := insertEntry (HistoryEntry.created (lowestFree r.table) x c) r.table }).joinSet x

/-! ### Identification (R120 to R124) -/

/-- R122: the part of a doubt that a counter shows to have landed. -/
def Doubt.landed (d : Doubt) (u : Nat) : Nat := min d.amount (u - d.base)

/-- R122: resolve an entry's doubt against the counter read. -/
def HistoryEntry.resolve (e : HistoryEntry) (u : Nat) : HistoryEntry :=
  match e.doubt with
  | some d => { e with debtQuanta := e.debtQuanta - d.landed u, doubt := none }
  | none => e

/-- The union of two sets of marks. -/
def Marks.union (a b : Marks) : Marks := { spent := a.spent || b.spent, refill := a.refill || b.refill }

/-- The marks of a usage page. -/
def UsagePage.marks (u : UsagePage) : Marks := { spent := u.spent, refill := u.refill }

/-- R123, R127: an entry's high-water and marks with a usage page merged in. -/
def HistoryEntry.merge (e : HistoryEntry) (u : UsagePage) : HistoryEntry :=
  { e with highWater := max e.highWater u.counter, marks := e.marks.union u.marks }

/-- Change a serial's entry and, if that changes it, have the serial join the append set. -/
def State.modEntryJournaled (s : State) (x : Serial) (f : HistoryEntry → HistoryEntry) : State :=
  match s.entry x with
  | some e => if f e = e then s else (s.modEntry x f).joinSet x
  | none => s

/-- R124: bay `b` unbinds the entry it holds: the entry's bay becomes none, the bay's serial absent, and the serial joins
the append set. -/
def State.unbind (s : State) (b : Bay) : State :=
  match (s.bay b).serial with
  | none => s
  | some x =>
    ((s.modEntry x fun e => { e with bay := none }).joinSet x).modBay b fun r => { r with serial := none }

/-- R121: the admission sequence after one more identification. -/
def nextSequence (n : Nat) : Nat := min (n + 1) Config.maxSequence

/-- R120: the identity handover of bay `b`, with the outcome of the identity-page checks; the bay's serial is set when the
answer is bound (R8). -/
def State.handover (s : State) (b : Bay) (i : IdentityPage) (u : UsagePage) (checksPassed : Bool) : State :=
  let x := i.serial
  let s := if (s.entry x).isSome then s else s.createEntry x i.classCode
  let s := s.modEntry x fun e => { (e.resolve u.counter) with classCode := i.classCode, lastSeen := s.refill.sequence }
  let s := (s.modRefill fun r => { r with sequence := nextSequence r.sequence }).joinSet x
  let bound := match s.entry x with
    | some e => e.bay = none || e.bay = some b
    | none => false
  let s := if bound then (s.modEntry x fun e => { e with bay := some b }).modBay b fun r => { r with serial := some x } else s
  if checksPassed then s else s.modEntryJournaled x fun e => e.merge u

/-- R8: the handover, preceded by the unbinding of a kept serial that differs from the one just read. -/
def State.handIdentity (s : State) (b : Bay) (i : IdentityPage) (u : UsagePage) (checksPassed : Bool) : State :=
  match (s.bay b).serial with
  | some x => if x = i.serial then s.handover b i u checksPassed else (s.unbind b).handover b i u checksPassed
  | none => s.handover b i u checksPassed

/-! ### Verdicts (R126, R127) -/

/-- R126, check 1: whether another bay that is ADMITTED or RELEASING has the serial in its identity page as read. -/
def State.drawnElsewhere (s : State) (b : Bay) (x : Serial) : Bool :=
  allBays.any fun c => c != b && (s.bay c).drawable && s.serialRead c = some x

/-- R126: the verdict on serial `x` in bay `b` with usage page `u`. -/
def State.verdict (s : State) (b : Bay) (x : Serial) (u : UsagePage) : Verdict :=
  let retired := match s.entry x with | some e => e.retired | none => false
  let highWater := match s.entry x with | some e => e.highWater | none => 0
  if s.drawnElsewhere b x then .clone
  else if retired && !u.spent then .clone
  else if u.counter < highWater then .rollback
  else if u.spent || u.refill then .refilled
  else .genuine

/-- R127: bring the entry up to date after a verdict. -/
def State.recordVerdict (s : State) (x : Serial) (v : Verdict) (u : UsagePage) : State :=
  s.modEntryJournaled x fun e => { e.merge u with lastVerdict := v }

/-! ### Liability (R128 to R133) -/

/-- The debt quanta and debt residue of a serial's entry. -/
def State.debtOf (s : State) (x : Serial) : Nat × Nat :=
  match s.entry x with
  | some e => (e.debtQuanta, e.debtResidue)
  | none => (0, 0)

/-- R128, R129, R131: the entry's debt becomes 0, and the serial joins the append set if it was not 0 already. A doubt that the
entry has gained since the bay's handover (R132: from the closing of another account of the serial) is dropped with the debt,
which keeps law 7 (R118); R128 says only that the entry holds none then. The model's choice (log entry 45). -/
def State.clearDebt (s : State) (x : Serial) : State :=
  s.modEntryJournaled x fun e => { e with debtQuanta := 0, debtResidue := 0, doubt := none }

/-- R128, R129: open an account for bay `b` with the debt of its serial's entry, which becomes 0; a doubt of the entry is
dropped (log entry 45). -/
def State.openWithDebt (s : State) (b : Bay) (x : Serial) (m : Metering) : State :=
  let d := s.debtOf x
  (s.clearDebt x).openAccount b m d.1 d.2

/-- R132, steps 1 to 3. The entry held no doubt before this (R132, law 7); one that it did hold would stand where none is handed
over (log entry 45). -/
def HistoryEntry.takeLiability (e : HistoryEntry) (l : Liability) : HistoryEntry :=
  { e with
    debtQuanta := addSaturating (addSaturating e.debtQuanta l.pending) (quantaOf (e.debtResidue + l.residue))
    debtResidue := residueOf (e.debtResidue + l.residue)
    doubt := match l.doubt with | some d => some d | none => e.doubt }

/-- The bays with a live account whose serial is `x` (R118: the serial of an account). -/
def State.liveAccountsOf (s : State) (x : Serial) : List Bay :=
  allBays.filter fun c => (s.account c).live && s.serialRead c = some x

/-- R133: the bay whose live account receives the liability of another of the same serial. -/
def State.receiver (s : State) (x : Serial) : Option Bay :=
  ((s.liveAccountsOf x).find? fun c => (s.bay c).drawable).orElse fun _ => (s.liveAccountsOf x).head?

/-- R132, R133: the Refill Watch takes a closed account's liability. -/
def State.handLiability (s : State) (x : Serial) (l : Liability) : State :=
  let s := match s.receiver x with
    | some c =>
      match (s.account c).metering with
      | .metered => s.takeDebt c l.pending l.residue
      | .unmetered => s.addOverdraw c l.pending
    | none => s.modEntry x fun e => e.takeLiability l
  s.joinSet x

/-- R84: the bay's account closes and its liability moves. -/
def State.closeWithLiability (s : State) (b : Bay) : State :=
  let a := s.account b
  if a.live then
    let s := s.modAccount b fun _ => Account.cold
    match s.serialRead b with
    | some x => s.handLiability x a.liability
    | none => s
  else s

/-- R84, R104, R116: the bay's account closes with nothing to hand over; the closing is reported (R132, R135). -/
def State.closeEmpty (s : State) (b : Bay) : State :=
  let s := s.modAccount b fun _ => Account.cold
  match s.serialRead b with
  | some x => s.joinSet x
  | none => s

/-! ### Mark orders (R102) and reports (R134) -/

/-- R102: place a mark order, unless one for the mark stands already. The older order stands first. -/
def placeOrder (m : Mark) (os : List MarkOrder) : List MarkOrder :=
  if os.any fun o => o.mark = m then os else os ++ [{ mark := m, attempts := 0 }]

/-- Place a mark order among a bay's. -/
def State.orderMark (s : State) (b : Bay) (m : Mark) : State := s.modOrders b (placeOrder m)

/-- R134: a confirmed or read counter value. -/
def State.reportCounter (s : State) (x : Serial) (c : Nat) : State :=
  (s.modEntry x fun e => { e with highWater := max e.highWater c }).joinSet x

/-- R134: the cartridge is used up. -/
def State.reportUsedUp (s : State) (x : Serial) : State :=
  (s.modEntry x fun e => { e with retired := true }).joinSet x

/-- A set of marks with one more. -/
def Marks.add (k : Marks) : Mark → Marks
  | .spent => { k with spent := true }
  | .refill => { k with refill := true }

/-- R134: a mark is set on the token. -/
def State.reportMark (s : State) (x : Serial) (m : Mark) : State :=
  (s.modEntry x fun e => { e with marks := e.marks.add m }).joinSet x

/-- R134: a level-sense confirmation in bay `b`: the verdict REFILLED, a REFILL order and the REFILL notice. -/
def State.reportRefill (s : State) (b : Bay) (x : Serial) : State :=
  ((((s.modEntry x fun e => { e with lastVerdict := .refilled }).joinSet x).orderMark b .refill).raise .refill b)

/-- Report to the entry of the serial in the bay's identity page as read. -/
def State.reportFor (s : State) (b : Bay) (f : State → Serial → State) : State :=
  match s.serialRead b with
  | some x => f s x
  | none => s

/-! ### The reading for the journal (R135, R144) -/

/-- R135: the pending quanta, summed over the live accounts of a serial. R135 states the sum of two; with three or more (R133) it is
that of all, the model's choice (log entry 46). -/
def State.livePending (s : State) (x : Serial) : Nat :=
  ((s.liveAccountsOf x).map fun b => (s.account b).pending).sum

/-- R135: the residue, summed over the live accounts of a serial, of all where there are three or more (log entry 46). -/
def State.liveResidue (s : State) (x : Serial) : Nat :=
  ((s.liveAccountsOf x).map fun b => (s.account b).residue).sum

/-- R135: the debt part for a serial held by a live account: the liability with the carry of R132, saturating. With three or more
live accounts the carry may be of more than one quantum (log entry 46). -/
def State.liveDebt (s : State) (x : Serial) : Nat × Nat :=
  (addSaturating (s.livePending x) (quantaOf (s.liveResidue x)), residueOf (s.liveResidue x))

/-- R135: the doubt part for a serial held by a live account, of the lower-numbered bay whose in-flight is above 0; of the
lowest-numbered where there are three or more live accounts (log entry 46). -/
def State.liveDoubt (s : State) (x : Serial) : Option Doubt :=
  ((s.liveAccountsOf x).find? fun b => decide (0 < (s.account b).inFlight)).map fun b =>
    { base := (s.account b).committed, amount := (s.account b).inFlight }

/-- R135, R144: the record the Retention Controller writes for a serial now. -/
def State.recordOf (s : State) (x : Serial) : JournalRecord :=
  match s.entry x with
  | none => .evict x
  | some e =>
    let live := !(s.liveAccountsOf x).isEmpty
    let debt := if live then s.liveDebt x else (e.debtQuanta, e.debtResidue)
    .history {
      serial := x
      classCode := e.classCode
      highWater := e.highWater
      marks := e.marks
      retired := e.retired
      lastVerdict := e.lastVerdict
      lastSeen := e.lastSeen
      debt := if debt.1 = 0 && debt.2 = 0 then none else some debt
      doubt := if live then s.liveDoubt x else e.doubt }

end Sys2Proof.Machine
end

