-- ==== Sys2Proof/Machine/Bays.lean ====
section
/-! DEFINITION. The Bay Controllers' changes of state: settling and identification, admission, rejection, quarantine, fault,
release, withdrawal and BAY-RESET (chapter 1), with the ends of a challenge (R56, R61) and of a transaction (R30, R31, R45,
R46) they bring about, and the verdict's effect on the bay (R11). -/

namespace Sys2Proof.Machine

/-! ### The Digest Engine's part (R54, R56) -/

/-- R56: a bay's job leaves the engine: removed from the queue, or marked discarded while it computes. -/
def Digest.dropJob (d : Digest) (b : Bay) : Digest :=
  { d with
    queue := d.queue.filter fun j => j.bay != b
    computing := d.computing.map fun c => if c.bay = b then { c with discarded := true } else c }

/-- Close a bay's context (R54): every field clears. -/
def State.closeContext (s : State) (b : Bay) : State := s.modContext b fun _ => Context.closed

/-! ### The bus's part (R28, R30, R31, R45, R46) -/

/-- Whether an operation is a step of a challenge. -/
def BusOp.isChallenge : BusOp → Bool
  | .nonceSend _ _ => true
  | .answerFetch _ => true
  | _ => false

/-- Whether an operation is an ADVANCE. -/
def BusOp.isAdvance : BusOp → Bool
  | .advance _ _ => true
  | _ => false

/-- R31: whether a rest gap follows an operation that ended of itself. -/
def BusOp.rests : BusOp → Bool
  | .advance _ _ => true
  | .mark _ => true
  | _ => false

/-- R45: the detail of a fault record. -/
def BusOp.detail (op : BusOp) (fetchCount : Nat) : Nat :=
  match op with
  | .identRead .identity => 0
  | .identRead .calibration => 1
  | .identRead .usage => 2
  | .nonceSend _ _ => 0
  | .answerFetch _ => fetchCount
  | .advance _ target => target
  | .mark .spent => 0
  | .mark .refill => 1
  | .checkRead index => index

/-- R45: the fault record of a transaction of bus `n` that fails with `e`. -/
def State.transactionFault (s : State) (n : Bus) (t : Transaction) (e : ErrorKind) : FaultRecord where
  bay := some t.bay
  place := .bus n
  transaction := t.request.op.kind
  phase := t.phase
  error := e
  attempt := t.request.attempt
  detail := t.request.op.detail (s.port t.bay).fetchCount

/-- A transaction ends: the select output is released, and the rest timer starts if a rest gap follows (R31). -/
def State.endTransaction (s : State) (n : Bus) (rest : Bool) : State :=
  s.modBus n fun u => { u with current := none, restTimer := if rest then some Config.restMs else u.restTimer }

/-- R30: the bay's posted request is withdrawn, its answer timer stops and its fetch count becomes 0. -/
def State.withdrawPosted (s : State) (b : Bay) : State := s.modPort b fun _ => Port.cleared

/-- R46: a withdrawal aborts the bay's transaction in progress. -/
def State.abortTransaction (s : State) (b : Bay) : State :=
  match (s.bus (busOf b)).current with
  | some t =>
    if t.bay = b then (s.writeFault (s.transactionFault (busOf b) t .aborted)).endTransaction (busOf b) true else s
  | none => s

/-- Mark the bay's transaction in progress as one whose result is discarded when it reaches the bay (R47, R61), if its
operation is one that `p` picks. -/
def State.discardTransaction (s : State) (b : Bay) (p : BusOp → Bool) : State :=
  s.modBus (busOf b) fun u =>
    { u with current := u.current.map fun t => if t.bay = b && p t.request.op then { t with discarded := true } else t }

/-- R61: a challenge of the bay is ended from outside. -/
def State.endChallenge (s : State) (b : Bay) : State :=
  let s := (s.closeContext b).modDigest fun d => d.dropJob b
  let s := s.modPort b fun q =>
    { posted := match q.posted with
        | some r => if r.op.isChallenge then none else some r
        | none => none
      answerTimer := none
      fetchCount := 0 }
  (s.modBay b fun r => { r with fetchDue := false }).discardTransaction b BusOp.isChallenge

/-! ### States a bay enters -/

/-- R6: on entering IDENTIFYING the read attempts are 0. -/
def State.enterIdentifying (s : State) (b : Bay) : State :=
  s.modBay b fun r => { r with state := .identifying, readAttempts := 0, settleTimer := none, settled := false }

/-- R4: the bay moves to SETTLING. -/
def State.enterSettling (s : State) (b : Bay) : State :=
  s.modBay b fun r => { r with state := .settling, settleTimer := some Config.settleMs, settled := false }

/-- R18: the re-challenge timer's start, in ms: stopped while the interval is 0. -/
def timerStart (interval : Nat) : Option Nat :=
  if interval = 0 then none else some (interval * 1000)

/-- R11, R13, R18: the bay moves to ADMITTED, starts its re-challenge timer and raises ADMITTED. -/
def State.enterAdmitted (s : State) (b : Bay) : State :=
  (s.modBay b fun r =>
    { r with state := .admitted, rechallenge := .idle, rechallengeTimer := timerStart s.settings.interval }).raise .admitted b

/-- The bay moves to a state that is neither ADMITTED nor RELEASING: its re-challenge timer stops, and a re-challenge is
ended from outside (R61). R30 and R61 name no stop of an answer timer that a discarded NONCE-SEND left running in a bay with no
challenge to end, or one that leaves IDENTIFYING or CHALLENGING. The timer stops here as in R61, and the fetch count becomes 0:
the model's choice (log entry 22). -/
def State.leaveTo (s : State) (b : Bay) (t : BayState) (reason : RejectReason) : State :=
  (s.endChallenge b).modBay b fun r =>
    { r with state := t, rejectReason := reason, rechallenge := .idle, rechallengeTimer := none }

/-- The notice a rejection calls for (R10, R12, R130). -/
def RejectReason.notice : RejectReason → NoticeKind
  | .authFailed => .authFailed
  | .clone => .clone
  | .rollback => .rollback
  | .wrongClass | .unknownIssuer | .none => .rejectedOther

/-- The bay moves to REJECTED: a live account closes with its liability (R84), the notice is raised, and the requests waiting
on the bay complete with FAILED. -/
def State.rejectBay (s : State) (b : Bay) (reason : RejectReason) : State :=
  (((s.leaveTo b .rejected reason).closeWithLiability b).raise reason.notice b).settleWaits b failedEnding

/-- The bay moves to FAULTED with its account, if any, live; BAY_FAULTED is raised, and the requests waiting on the bay
complete with FAILED (R97, R100, R103). -/
def State.faultBay (s : State) (b : Bay) : State :=
  ((s.leaveTo b .faulted .none).raise .bayFaulted b).settleWaits b failedEnding

/-- R6: the third failed read of a page. -/
def State.faultIdentification (s : State) (b : Bay) : State :=
  let s := s.modBay b fun r => { r with identityPage := none, calibrationPage := none, usagePage := none }
  (s.unbind b).faultBay b

/-! ### Verdict (R11, R127 to R131) -/

/-- Set the bay record's verdict. -/
def State.setVerdict (s : State) (b : Bay) (v : Verdict) : State := s.modBay b fun r => { r with verdict := v }

/-- R11: the bay acts on a verdict. -/
def State.actOnVerdict (s : State) (b : Bay) (x : Serial) (u : UsagePage) (v : Verdict) : State :=
  match v with
  | .genuine => (s.enterAdmitted b).openWithDebt b x .metered
  | .refilled =>
    let s := (if u.refill then s else s.orderMark b .refill).raise .refill b
    match s.settings.tolerance with
    | .accept => (s.enterAdmitted b).openWithDebt b x .unmetered
    | .refuse => s.leaveTo b .quarantined .none
  | .clone => s.rejectBay b .clone
  | .rollback => s.rejectBay b .rollback
  | .none => s

/-- R11, R126, R127: the bay asks for a verdict, which is given, recorded and acted on. -/
def State.takeVerdict (s : State) (b : Bay) : State :=
  match (s.bay b).identityPage, (s.bay b).usagePage with
  | some i, some u =>
    let v := s.verdict b i.serial u
    ((s.recordVerdict i.serial v u).setVerdict b v).actOnVerdict b i.serial u v
  | _, _ => s

/-- R13, R131: a QUARANTINED bay met by a change of tolerance to ACCEPT. A doubt the entry has gained while the bay stood
QUARANTINED is dropped with the debt (log entry 45). -/
def State.admitQuarantined (s : State) (b : Bay) : State :=
  if (s.bay b).state = .quarantined then
    match s.serialRead b with
    | some x =>
      if s.drawnElsewhere b x then
        ((s.modEntryJournaled x fun e => { e with lastVerdict := .clone }).setVerdict b .clone).rejectBay b .clone
      else (s.enterAdmitted b).openWithDebt b x .unmetered
    | none => s
  else s

/-! ### Release (R15, R78, R104) -/

/-- The bay moves to RELEASED, raises RELEASED, and the requests waiting on it complete as `e` gives. -/
def State.enterReleased (s : State) (b : Bay) (e : Ending) : State :=
  ((s.leaveTo b .released .none).raise .released b).settleWaits b e

/-- R104: the release drain is complete: the account closes, the bay moves to RELEASED, and the RELEASE and a FLUSH still
waiting complete with OK. -/
def State.closeDrained (s : State) (b : Bay) : State :=
  (s.closeEmpty b).enterReleased b { flush := some .drained, release := some .ok, rechallenge := some .failed }

/-- R78: the release rounding. A rounded quantum that finds no room leaves pending at 0, and the next rounding, made at once,
lets the account close. -/
def State.roundRelease (s : State) (b : Bay) : State :=
  let a := s.account b
  if Config.halfQuantum ≤ a.residue then
    let s := (s.setResidue b 0).applyQuanta b 1
    if (s.account b).pending = 0 then s.closeDrained b else s
  else if a.pending = 0 then s.closeDrained b
  else s

/-! ### Withdrawal and BAY-RESET (R16, R17) -/

/-- R95: a withdrawal finds the bay's ADVANCE still posted: in-flight returns to 0 and the commit state to IDLE, so no doubt
is recorded. -/
def State.dropPostedAdvance (s : State) (b : Bay) : State :=
  match (s.port b).posted with
  | some q => if q.op.isAdvance then s.modAccount b fun a => { a with inFlight := 0, commitState := .idle } else s
  | none => s

/-- R16: the withdrawal. Replies of the requests it completes report the cleared record (R178). -/
def State.withdraw (s : State) (b : Bay) : State :=
  let s := (s.abortTransaction b).dropPostedAdvance b
  let s := ((s.withdrawPosted b).closeContext b).modDigest fun d => d.dropJob b
  let s := (s.closeWithLiability b).unbind b
  let s := (s.modBay b fun r => BayRec.cleared r.expectedClass).modOrders b fun _ => []
  (s.raise .withdrawn b).settleWaits b failedEnding

/-- R17: a taken BAY-RESET. The record is cleared except for the serial (and the expected class). -/
def State.resetBay (s : State) (b : Bay) : State :=
  let s := ((s.withdrawPosted b).discardTransaction b fun _ => true).closeContext b
  let s := (s.modDigest fun d => d.dropJob b).closeWithLiability b
  let s := s.modBay b fun r => { BayRec.cleared r.expectedClass with serial := r.serial }
  (s.modOrders b fun _ => []).enterIdentifying b

/-! ### Presence (R3, R4, R16) -/

/-- The level a presence line shows from now on. -/
def State.setPresence (s : State) (b : Bay) (p : Bool) : State :=
  { s with presence := upd s.presence b fun _ => p }

/-- R3: each bay samples its presence line once as the part leaves STARTING. -/
def State.samplePresence (s : State) : State :=
  forBays (fun b s => if s.presence[b] && (s.bay b).state = .vacant then s.enterSettling b else s) s

/-! ### Identification (R6 to R9) -/

/-- R7: the ENABLED slot whose issuer tag is the token's, if any. -/
def State.issuerSlot (s : State) (tag : BitVec 32) : Option SlotNo :=
  allSlots.find? fun k => (s.slot k).state = .enabled && (s.slot k).tag = some tag

/-- R7: the identity page completes. -/
def State.identityRead (s : State) (b : Bay) (i : IdentityPage) : State :=
  let s := s.modBay b fun r => { r with identityPage := some i, classCode := some i.classCode, readAttempts := 0 }
  let expected := (s.bay b).expectedClass
  if expected != 0 && expected != i.classCode then s.modBay b fun r => { r with rejectReason := .wrongClass }
  else match s.issuerSlot i.issuerTag with
    | some k => s.modBay b fun r => { r with slot := some k }
    | none => s.modBay b fun r => { r with rejectReason := .unknownIssuer }

/-- R8, R9: the usage page completes; the identity is handed over and the bay moves to CHALLENGING, or to REJECTED after a
failed check (R7). -/
def State.usageRead (s : State) (b : Bay) (u : UsagePage) : State :=
  let s := s.modBay b fun r => { r with usagePage := some u, readAttempts := 0 }
  let passed := (s.bay b).rejectReason = .none
  let s := match (s.bay b).identityPage with
    | some i => s.handIdentity b i u passed
    | none => s
  if passed then s.modBay b fun r => { r with state := .challenging, mismatches := 0, commFailures := 0 }
  else s.rejectBay b (s.bay b).rejectReason

/-- R6: a page read completes. -/
def State.pageRead (s : State) (b : Bay) (p : PageContent) : State :=
  match p with
  | .identity i => s.identityRead b i
  | .calibration c => s.modBay b fun r => { r with calibrationPage := some c, readAttempts := 0 }
  | .usage u => s.usageRead b u

/-- R6: a page read fails. -/
def State.pageFailed (s : State) (b : Bay) : State :=
  let s := s.modBay b fun r => { r with readAttempts := r.readAttempts + 1 }
  if (s.bay b).readAttempts < 3 then s else s.faultIdentification b

end Sys2Proof.Machine
end

