-- ==== Sys2Proof/Machine/Commits.lean ====
section
/-! DEFINITION. Commits: their start (R94), success (R96), failure (R97, R98), the CHECK-READ that resolves a doubt (R99,
R100), SPENT marking (R101) and the outcomes of a MARK (R102). An outcome applies to the account whose commit it is: it is
live and its commit state says so. -/

namespace Sys2Proof.Machine

/-- R94: the bay posts its ADVANCE. -/
def State.startCommit (s : State) (b : Bay) : State :=
  let a := s.account b
  let target := a.committed + a.pending
  (s.modAccount b fun a => { a with inFlight := a.pending, target := target, commitState := .advance }).modPort b fun q =>
    { q with posted := some { op := .advance a.index target, attempt := a.failures + 1 } }

/-- R101: committed has come to equal capacity. -/
def State.usedUp (s : State) (b : Bay) : State :=
  ((s.orderMark b .spent).reportFor b State.reportUsedUp).raise .spent b

/-- R96, step 6: pending has come to 0: the FLUSH demand clears, the waiting FLUSH requests complete, and a releasing bay's
account is rounded and may close (R78, R104). A FLUSH and a RELEASE completed by one event are answered in a free order (R178; log
entry 5). -/
def State.pendingDrained (s : State) (b : Bay) : State :=
  let s := (s.modAccount b fun a => { a with drain := { a.drain with flush := false } }).settleWaits b
    { flush := some .drained }
  if (s.account b).drain.release && (s.bay b).state = .releasing then s.roundRelease b else s

/-- R96: the success of a commit, in the rule's order. -/
def State.commitSuccess (s : State) (b : Bay) : State :=
  s.allowanceChecked b fun s =>
    let target := (s.account b).target
    let s := s.modAccount b fun a =>
      { a with
        committed := a.target
        pending := a.pending - a.inFlight
        inFlight := 0
        commitState := .idle
        failures := 0 }
    let s := s.reportFor b fun s x => s.reportCounter x target
    let s := if (s.account b).committed = (s.account b).capacity then s.usedUp b else s
    if (s.account b).pending = 0 then s.pendingDrained b else s

/-- R97: a commit that did not land: its failure is counted; below three COMMIT_RETRY is raised, at three the bay faults. -/
def State.countFailure (s : State) (b : Bay) : State :=
  let s := s.modAccount b fun a => { a with inFlight := 0, commitState := .idle, failures := a.failures + 1 }
  if (s.account b).failures < 3 then s.raise .commitRetry b else s.faultBay b

/-- R97: the ADVANCE failed with the report "not landed". -/
def State.commitNotLanded (s : State) (b : Bay) : State := s.allowanceChecked b fun s => s.countFailure b

/-- R98: the ADVANCE failed with the report "in doubt". -/
def State.commitInDoubt (s : State) (b : Bay) : State :=
  s.modAccount b fun a => { a with commitState := .check }

/-- R99, third row: the counter shows that part landed. -/
def State.commitPartly (s : State) (b : Bay) (c : Nat) : State :=
  s.allowanceChecked b fun s =>
    let s := s.modAccount b fun a => { a with committed := c, pending := a.pending - (c - a.committed) }
    (s.reportFor b fun s x => s.reportCounter x c).countFailure b

/-- R99, fourth row: the counter shows a rollback. -/
def State.commitRollback (s : State) (b : Bay) (c : Nat) : State :=
  (s.reportFor b fun s x => s.reportCounter x c).rejectBay b .rollback

/-- R99: the CHECK-READ completes with counter `c`. -/
def State.resolveCheck (s : State) (b : Bay) (c : Nat) : State :=
  let a := s.account b
  if c = a.target then s.commitSuccess b
  else if c = a.committed then s.commitNotLanded b
  else if a.committed < c && c < a.target then s.commitPartly b c
  else s.commitRollback b c

/-- Whether the account still awaits the outcome of an ADVANCE. -/
def State.awaitsAdvance (s : State) (b : Bay) : Bool :=
  (s.account b).live && (s.account b).commitState = .advance

/-- Whether the account still awaits the outcome of a CHECK-READ. -/
def State.awaitsCheck (s : State) (b : Bay) : Bool :=
  (s.account b).live && (s.account b).commitState = .check

/-- R42: whether a failed ADVANCE may have written the token. -/
def advanceInDoubt (p : Phase) : Bool := p != .arm

/-- R97, R98: an ADVANCE of the bay failed in a phase. -/
def State.advanceFailed (s : State) (b : Bay) (p : Phase) : State :=
  if s.awaitsAdvance b then (if advanceInDoubt p then s.commitInDoubt b else s.commitNotLanded b) else s

/-- R96: an ADVANCE of the bay completed. -/
def State.advanceDone (s : State) (b : Bay) : State :=
  if s.awaitsAdvance b then s.commitSuccess b else s

/-- R99: a CHECK-READ of the bay completed. -/
def State.checkDone (s : State) (b : Bay) (c : Nat) : State :=
  if s.awaitsCheck b then s.resolveCheck b c else s

/-- R100: a CHECK-READ of the bay failed. -/
def State.checkFailed (s : State) (b : Bay) : State :=
  if s.awaitsCheck b then s.faultBay b else s

/-- R102: a MARK of the bay completed with OK or ALREADY. -/
def State.markDone (s : State) (b : Bay) (m : Mark) : State :=
  (s.modOrders b fun os => os.filter fun o => o.mark != m).reportFor b fun s x => s.reportMark x m

/-- R102: a failure of a mark's order: counted up to three, abandoned at the fourth. -/
def failOrder (m : Mark) (os : List MarkOrder) : List MarkOrder :=
  os.filterMap fun o =>
    if o.mark = m then (if o.attempts < 3 then some { o with attempts := o.attempts + 1 } else none) else some o

/-- R102: a MARK of the bay failed. -/
def State.markFailed (s : State) (b : Bay) (m : Mark) : State := s.modOrders b (failOrder m)

end Sys2Proof.Machine
end

