-- ==== Sys2Proof/Machine/Exchange.lean ====
section
/-! DEFINITION. The challenge exchange: nonces (R53), the contexts and the job queue (R54 to R56), the judgment (R57, R58),
and the outcomes of an admission challenge and of a re-challenge (R59, R60, R18, R19). -/

namespace Sys2Proof.Machine

/-! ### Outcomes (R58 to R60) -/

/-- R58: the outcomes of an exchange. -/
inductive ExchangeOutcome where
  | noLongerEnabled
  | communication
  | agree
  | mismatch
  deriving DecidableEq, Repr

/-- R58: judge a context. `enabled` says whether its slot is ENABLED now. -/
def Context.judge (c : Context) (enabled : Bool) : ExchangeOutcome :=
  if !enabled || c.expected = .withheld then .noLongerEnabled
  else if c.endCause != .none then .communication
  else match c.expected, c.tokenAnswer with
    | .present e, some t => if e = t then .agree else .mismatch
    | _, _ => .mismatch

/-- Whether a context's slot is ENABLED now. -/
def State.slotEnabled (s : State) (k : Option SlotNo) : Bool :=
  match k with
  | some k => (s.slot k).state = .enabled
  | none => false

/-- R59: the bay acts on the outcome of an exchange of its admission challenge. -/
def State.admissionOutcome (s : State) (b : Bay) (o : ExchangeOutcome) : State :=
  match o with
  | .agree => s.takeVerdict b
  | .mismatch => (s.modBay b fun r => { r with mismatches := 1 }).rejectBay b .authFailed
  | .noLongerEnabled => s.rejectBay b .unknownIssuer
  | .communication =>
    let s := s.modBay b fun r => { r with commFailures := r.commFailures + 1 }
    if (s.bay b).commFailures < 3 then s else s.faultBay b

/-- R60, R18: a re-challenge ends in a match. -/
def State.rechallengeMatched (s : State) (b : Bay) : State :=
  (s.modBay b fun r =>
    { r with
      rechallenge := .idle
      rechallengeTimer := if r.state = .admitted then timerStart s.settings.interval else r.rechallengeTimer }).settleWaits b
    { rechallenge := some .ok }

/-- R60: the bay acts on the outcome of an exchange of its re-challenge. -/
def State.rechallengeOutcome (s : State) (b : Bay) (o : ExchangeOutcome) : State :=
  match o with
  | .agree => s.rechallengeMatched b
  | .mismatch =>
    let s := s.modBay b fun r => { r with mismatches := r.mismatches + 1 }
    if (s.bay b).mismatches < 2 then s else s.rejectBay b .authFailed
  | .noLongerEnabled => s.rejectBay b .unknownIssuer
  | .communication =>
    let s := s.modBay b fun r => { r with commFailures := r.commFailures + 1 }
    if (s.bay b).commFailures < 3 then s else s.faultBay b

/-- R57, R58: the bay's exchange has ended: it is judged, its context closes, its job leaves the engine (R56), and the bay
acts on the outcome. -/
def State.judgeExchange (s : State) (b : Bay) : State :=
  let c := s.context b
  let o := c.judge (s.slotEnabled c.slot)
  let s := ((s.closeContext b).modDigest fun d => d.dropJob b).modBay b fun r => { r with fetchDue := false }
  match c.kind with
  | some .admission => s.admissionOutcome b o
  | some .rechallenge => s.rechallengeOutcome b o
  | none => s

/-- R57: the exchange ends if the token answer is present and the expected answer is present or withheld. -/
def State.judgeIfComplete (s : State) (b : Bay) : State :=
  if (s.context b).tokenAnswer.isSome && (s.context b).expected != .absent then s.judgeExchange b else s

/-! ### The engine (R55, R56) -/

/-- R55: the engine, idle, takes the job at the head of its queue; a job whose slot is not ENABLED ends at once with its
answer withheld, and the engine takes the next. `fuel` bounds the jobs taken. -/
def State.pump : Nat → State → State
  | 0, s => s
  | fuel + 1, s =>
    if s.digest.computing.isSome then s
    else match s.digest.queue with
      | [] => s
      | j :: rest =>
        let s := s.modDigest fun d => { d with queue := rest }
        match (s.slot j.slot).state, (s.slot j.slot).secret with
        | .enabled, some secret =>
          (s.modContext j.bay fun c => { c with job := .computing }).modDigest fun d =>
            { d with computing := some {
                bay := j.bay
                answer := Config.answer secret j.nonce j.serial j.identityPage j.calibrationPage
                discarded := false } }
        | _, _ =>
          ((s.modContext j.bay fun c => { c with job := .done, expected := .withheld }).judgeIfComplete j.bay).pump fuel

/-- The engine takes what it can; its queue holds at most one job for each bay (R55). -/
def State.runEngine (s : State) : State := s.pump (s.digest.queue.length + 1)

/-- R55, R56: engine-done. A discarded job's result goes nowhere. -/
def State.engineDone (s : State) : State :=
  match s.digest.computing with
  | none => s
  | some c =>
    let s := s.modDigest fun d => { d with computing := none }
    let s := if c.discarded then s
      else (s.modContext c.bay fun x => { x with job := .done, expected := .present c.answer }).judgeIfComplete c.bay
    s.runEngine

/-! ### Nonces and the opening of an exchange (R53, R54) -/

/-- The 48 bits a nonce holds for a draw number (R53; beyond 48 bits left open, log entry 7). -/
def drawBits (n : Nat) : BitVec 48 := if n < 2 ^ 48 then BitVec.ofNat 48 n else Config.drawNumberBeyond n

/-- R53, 12.1: a nonce, the draw number in bytes 0 to 5 and the random part in bytes 6 to 15. -/
def nonceOf (n : Nat) (r : BitVec 80) : BitVec 128 := drawBits n ++ r

/-- The nonce the next draw gives. -/
def State.nextNonce (s : State) : BitVec 128 := nonceOf s.digest.drawNumber (Config.random s.free)

/-- R55: the job queued for a bay, with its copies of the pages as read; none if the bay has not both pages and a slot. -/
def State.jobFor (s : State) (b : Bay) (nonce : BitVec 128) : Option Job :=
  match (s.bay b).identityPage, (s.bay b).calibrationPage, (s.bay b).slot with
  | some i, some c, some k =>
    some { bay := b, slot := k, nonce := nonce, serial := i.serial, identityPage := i.bytes, calibrationPage := c.bytes }
  | _, _, _ => none

/-- R54: an exchange opens: a nonce is drawn, the context opens, a job joins the queue, and the NONCE-SEND is posted with
`attempt` as its attempt number (R45). -/
def State.openExchange (s : State) (b : Bay) (kind : ChallengeKind) : State :=
  let nonce := s.nextNonce
  match s.jobFor b nonce with
  | none => s
  | some j =>
    let attempt := (s.bay b).commFailures + 1
    let s := { s with free := s.free + 1 }
    let s := s.modDigest fun d => { d with drawNumber := d.drawNumber + 1, queue := d.queue ++ [j] }
    let s := s.modContext b fun _ =>
      { Context.closed with kind := some kind, slot := some j.slot, nonce := nonce, job := .waiting }
    (s.modPort b fun q => { q with posted := some { op := .nonceSend kind nonce, attempt := attempt } }).runEngine

/-! ### The start of a re-challenge (R19) -/

/-- R19: whether a WAITING re-challenge may start: no commit in progress, and not held back by SAVE or EXPIRED unless its
slot is no longer ENABLED (R18, R21). -/
def State.rechallengeMayStart (s : State) (b : Bay) : Bool :=
  (s.bay b).drawable && (s.bay b).rechallenge = .waiting && (s.account b).commitState = .idle &&
  (s.supply.state = .normal || !s.slotEnabled (s.bay b).slot)

/-- R19: a WAITING re-challenge starts, and fails at once if its slot is not ENABLED. -/
def State.startRechallenge (s : State) (b : Bay) : State :=
  if s.rechallengeMayStart b then
    let s := s.modBay b fun r => { r with rechallenge := .running, mismatches := 0, commFailures := 0 }
    if s.slotEnabled (s.bay b).slot then s else s.rejectBay b .unknownIssuer
  else s

end Sys2Proof.Machine
end

