-- ==== Sys2Proof/Machine/Buses.lean ====
section
/-! DEFINITION. The bay's choice of its next operation (R22), the arbiter and the grant (R27 to R31), and what the end of each
phase of a transaction brings (R26, R38 to R47). -/

namespace Sys2Proof.Machine

/-! ### The bay's choice (R22) -/

/-- An operation that can be due for a bay. -/
inductive Due where
  | checkRead
  | commit
  | mark (m : Mark) (attempts : Nat)
  | readPage (p : Page)
  | openExchange (k : ChallengeKind)
  | fetch (k : ChallengeKind)
  deriving DecidableEq, Repr

/-- The states in which a bay may post a MARK (1.11). -/
def BayState.mayMark : BayState → Bool
  | .admitted | .releasing | .quarantined | .rejected | .released | .faulted => true
  | .vacant | .settling | .identifying | .challenging => false

/-- R6, R7: the page an IDENTIFYING bay reads next. After a failed check the calibration page is not read. -/
def BayRec.nextPage (r : BayRec) : Page :=
  if r.identityPage.isNone then .identity
  else if r.rejectReason = .none && r.calibrationPage.isNone then .calibration
  else .usage

/-- The step of a challenge that is due: a new exchange while the context is closed, the fetch once the answer is due. -/
def State.challengeStep (s : State) (b : Bay) (k : ChallengeKind) : Option Due :=
  if (s.context b).kind.isNone then some (.openExchange k)
  else if (s.bay b).fetchDue then some (.fetch k) else none

/-- R22, item 1. -/
def State.checkReadDue (s : State) (b : Bay) : Bool := (s.bay b).drawable && s.awaitsCheck b

/-- R93: whether a commit is due for the bay's account. -/
def State.commitDue (s : State) (b : Bay) : Bool := Machine.commitDue s.settings (s.bay b) (s.account b)

/-- R22, item 3: the MARK that is due, that of the older order (R102). -/
def State.markDue (s : State) (b : Bay) : Option MarkOrder :=
  if (s.bay b).state.mayMark then (s.markOrders b).head? else none

/-- R22, items 5 and 6. -/
def State.stepDue (s : State) (b : Bay) : Option Due :=
  match (s.bay b).state with
  | .identifying => some (.readPage (s.bay b).nextPage)
  | .challenging => s.challengeStep b .admission
  | .admitted | .releasing => if (s.bay b).rechallenge = .running then s.challengeStep b .rechallenge else none
  | .vacant | .settling | .quarantined | .rejected | .released | .faulted => none

/-- R22: the first operation due. -/
def State.nextDue (s : State) (b : Bay) : Option Due :=
  if s.checkReadDue b then some .checkRead
  else if s.commitDue b && (s.account b).drain.save then some .commit
  else match s.markDue b with
    | some o => some (.mark o.mark o.attempts)
    | none =>
      if s.commitDue b && (s.bay b).rechallenge != .running then some .commit
      else s.stepDue b

/-- Post a request for the bay (R25). -/
def State.postRequest (s : State) (b : Bay) (op : BusOp) (attempt : Nat) : State :=
  s.modPort b fun q => { q with posted := some { op := op, attempt := attempt } }

/-- R22: post an operation that is due, with the attempt number R45 gives it. -/
def State.post (s : State) (b : Bay) (d : Due) : State :=
  match d with
  | .checkRead => s.postRequest b (.checkRead (s.account b).index) 1
  | .commit => s.startCommit b
  | .mark m attempts => s.postRequest b (.mark m) (attempts + 1)
  | .readPage p => s.postRequest b (.identRead p) ((s.bay b).readAttempts + 1)
  | .openExchange k => s.openExchange b k
  | .fetch k =>
    (s.modBay b fun r => { r with fetchDue := false }).postRequest b (.answerFetch k) ((s.bay b).commFailures + 1)

/-! ### The arbiter (R27 to R29) -/

/-- The class of a bay's posted request, if it has one. -/
def State.postedClass (s : State) (b : Bay) : Option Nat :=
  (s.port b).posted.map fun q => requestClass (s.account b) q

/-- The four bays of a bus in increasing order. -/
def busBays (n : Bus) : List Bay := [bayOn n 0, bayOn n 1, bayOn n 2, bayOn n 3]

/-- R29: the bays of a bus in turn, from the one after last granted. -/
def turnOrder (n : Bus) (last : Bay) : List Bay :=
  [bayOn n (last.val + 1), bayOn n (last.val + 2), bayOn n (last.val + 3), bayOn n last.val]

/-- R29: the bay with the largest pending, the lower bay among equals (for a list in increasing bay order). -/
def State.largestPending (s : State) : List Bay → Option Bay
  | [] => none
  | b :: rest =>
    match s.largestPending rest with
    | none => some b
    | some c => if (s.account b).pending < (s.account c).pending then some c else some b

/-- The highest class in which a request of the bus is posted: the smallest class number. -/
def State.bestClass (s : State) (n : Bus) : Option Nat :=
  [1, 2, 3, 4, 5].find? fun k => (busBays n).any fun b => s.postedClass b = some k

/-- R29: the bay the arbiter chooses. -/
def State.choice (s : State) (n : Bus) : Option Bay :=
  match s.bestClass n with
  | none => none
  | some k =>
    if k = 2 then s.largestPending ((busBays n).filter fun b => s.postedClass b = some 2)
    else (turnOrder n (s.bus n).lastGranted).find? fun b => s.postedClass b = some k

/-- The phase a transaction begins in (2.5). -/
def BusOp.firstPhase : BusOp → Phase
  | .identRead _ => .reply
  | .nonceSend _ _ => .acknowledgement
  | .answerFetch _ => .fetch
  | .advance _ _ => .arm
  | .mark _ => .reply
  | .checkRead _ => .reply

/-- R33, R41: the program time in use, clamped to 1 to 20 ms. -/
def BayRec.programTime (r : BayRec) : Nat :=
  match r.calibrationPage with
  | some c => clampNat 1 20 c.programTime
  | none => 1

/-- Set a bay's answer timer (R39, R40). -/
def State.setAnswerTimer (s : State) (b : Bay) (ms : Nat) : State := s.modPort b fun q => { q with answerTimer := some ms }

/-- R33, R39: the answer timer starts at the bay's compute time, clamped to 2 to 60 ms. For a bay whose calibration page a
BAY-RESET has cleared meanwhile the time is a free value within those bounds (log entry 22). -/
def State.startAnswerTimer (s : State) (b : Bay) : State :=
  match (s.bay b).calibrationPage with
  | some c => s.setAnswerTimer b (clampNat 2 60 c.computeTime)
  | none => ({ s with free := s.free + 1 } : State).setAnswerTimer b (clampNat 2 60 (Config.lostComputeTime s.free))

/-- R28: whether a bus may make a grant. -/
def State.mayGrant (s : State) (n : Bus) : Bool := (s.bus n).free && s.supply.state != .expired

/-- R28: grant the bus to a bay's posted request. -/
def State.grantTo (s : State) (n : Bus) (b : Bay) (q : BusRequest) : State :=
  let t : Transaction := {
    bay := b
    request := q
    phase := q.op.firstPhase
    programTime := if q.op.isAdvance then some (s.bay b).programTime else none
    discarded := false }
  let s := s.modPort b fun p =>
    { p with posted := none, fetchCount := if q.op.kind = .answerFetch then p.fetchCount + 1 else p.fetchCount }
  s.modBus n fun u => { u with lastGranted := b, current := some t }

/-- R28: make a grant if one is due. -/
def State.grant (s : State) (n : Bus) : State :=
  if s.mayGrant n then
    match s.choice n with
    | some b => match (s.port b).posted with
      | some q => s.grantTo n b q
      | none => s
    | none => s
  else s

/-- R22: the bay chooses and posts, if it has nothing posted, nothing in progress on the bus and something due. A grant that is
due on the bus was made at the event before, and so without this request (R28). -/
def State.chooseNext (s : State) (b : Bay) : State :=
  if (s.port b).posted.isSome || s.inProgress b then s
  else match s.nextDue b with
    | some d => (s.grant (busOf b)).post b d
    | none => s

/-- R93: when an examination of the bay's account finds a commit due while the bay has nothing posted and nothing in progress on
its bus, "the bay makes its choice at once". Within an event that goes on to further work at the account, a USAGE with more
entries (R76), that choice is part of the event. After every other event, and where the first operation due is another, which was
due before the examination, it is the command POST_NEXT_OPERATION (log entry 14). -/
def State.examine (s : State) (b : Bay) : State := if s.nextDue b = some .commit then s.chooseNext b else s

/-! ### The end of a phase (R26, R38 to R45) -/

/-- The failure of a transaction reaches the bay (R45). -/
def State.deliverFailure (s : State) (t : Transaction) : State :=
  match t.request.op with
  | .identRead _ => s.pageFailed t.bay
  | .nonceSend _ _ => (s.modContext t.bay fun c => { c with endCause := .nonceFailed }).judgeExchange t.bay
  | .answerFetch _ => (s.modContext t.bay fun c => { c with endCause := .fetchFailed }).judgeExchange t.bay
  | .advance _ _ => s.advanceFailed t.bay t.phase
  | .mark m => s.markFailed t.bay m
  | .checkRead _ => s.checkFailed t.bay

/-- R40: the fetch count becomes 0 at the end of an ANSWER-FETCH that is not repeated. -/
def State.clearFetchCount (s : State) (b : Bay) : State := s.modPort b fun q => { q with fetchCount := 0 }

/-- R45: a transaction fails: its fault record is written, it ends, and the bay is told unless its result is discarded
(R47, R61). -/
def State.failTransaction (s : State) (n : Bus) (t : Transaction) (e : ErrorKind) : State :=
  let s := (s.writeFault (s.transactionFault n t e)).endTransaction n t.request.op.rests
  let s := if t.request.op.kind = .answerFetch then s.clearFetchCount t.bay else s
  if t.discarded then s else s.deliverFailure t

/-- A transaction completes: it ends, and `report` tells the bay unless the result is discarded. -/
def State.completeTransaction (s : State) (n : Bus) (t : Transaction) (report : State → State) : State :=
  let s := s.endTransaction n t.request.op.rests
  if t.discarded then s else report s

/-- The next phase of a transaction. -/
def State.setPhase (s : State) (n : Bus) (p : Phase) : State :=
  s.modBus n fun u => { u with current := u.current.map fun t => { t with phase := p } }

/-- The current transaction of a bus if it awaits what a command brings: its kind and its phase are the command's. -/
def State.awaiting (s : State) (n : Bus) (k : TransactionKind) (p : Phase) : Option Transaction :=
  match (s.bus n).current with
  | some t => if t.request.op.kind = k && t.phase = p then some t else none
  | none => none

/-- R38: the reply to an IDENT-READ. -/
def State.identityReply (s : State) (n : Bus) (frame : List Byte) : State :=
  match s.awaiting n .identRead .reply with
  | none => s
  | some t =>
    match t.request.op with
    | .identRead p =>
      let capacity := match (s.bay t.bay).identityPage with | some i => i.capacity | none => 0
      match judgeReply false none (readPage p capacity) frame with
      | .good c => s.completeTransaction n t fun s => s.pageRead t.bay c
      | .bad e => s.failTransaction n t e
      | .busy => s
    | _ => s

/-- R39: the acknowledgement of a NONCE-SEND. The Token Bus Controller sets the fetch count and starts the answer timer whether or
not its report is discarded when it reaches the bay (R47, R61). -/
def State.nonceReply (s : State) (n : Bus) (frame : List Byte) : State :=
  match s.awaiting n .nonceSend .acknowledgement with
  | none => s
  | some t =>
    match judgeReply false none noData frame with
    | .good _ =>
      ((s.clearFetchCount t.bay).startAnswerTimer t.bay).completeTransaction n t fun s =>
        s.modBay t.bay fun r => { r with fetchDue := false }
    | .bad e => s.failTransaction n t e
    | .busy => s

/-- R39, R40: the bay's answer timer expires, and its ANSWER-FETCH becomes due. -/
def State.answerTimerExpired (s : State) (b : Bay) : State :=
  if (s.port b).answerTimer.isSome then
    (s.modPort b fun q => { q with answerTimer := none }).modBay b fun r => { r with fetchDue := true }
  else s

/-- R40, R57: the token answer reaches the bay's context. -/
def State.takeAnswer (s : State) (b : Bay) (a : BitVec 128) : State :=
  (s.modContext b fun c => { c with tokenAnswer := some a }).judgeIfComplete b

/-- R40: the reply to an ANSWER-FETCH. After a BUSY below the fourth the Token Bus Controller starts the answer timer, and there is
nothing to report to the bay. -/
def State.fetchReply (s : State) (n : Bus) (frame : List Byte) : State :=
  match s.awaiting n .answerFetch .fetch with
  | none => s
  | some t =>
    match judgeReply true none answerData frame with
    | .good a => (s.clearFetchCount t.bay).completeTransaction n t fun s => s.takeAnswer t.bay a
    | .bad e => s.failTransaction n t e
    | .busy =>
      if (s.port t.bay).fetchCount < 4 then
        (s.setAnswerTimer t.bay Config.busyRepeatMs).endTransaction n t.request.op.rests
      else s.failTransaction n t .noResponse

/-- R41: the reply to an ADVANCE's ARM. -/
def State.armReplied (s : State) (n : Bus) (frame : List Byte) : State :=
  match s.awaiting n .advance .arm with
  | none => s
  | some t =>
    match judgeReply false none noData frame with
    | .good _ => s.setPhase n .load
    | .bad e => s.failTransaction n t e
    | .busy => s

/-- R41: the reply to an ADVANCE's LOAD. -/
def State.loadReplied (s : State) (n : Bus) (frame : List Byte) : State :=
  match s.awaiting n .advance .load with
  | none => s
  | some t =>
    match judgeReply false none noData frame with
    | .good _ => s.setPhase n .burn
    | .bad e => s.failTransaction n t e
    | .busy => s

/-- R41: the BURN wait ends and the CONFIRM read is sent. -/
def State.burnEnded (s : State) (n : Bus) : State :=
  match s.awaiting n .advance .burn with
  | none => s
  | some _ => s.setPhase n .confirm

/-- R41: the CONFIRM reply; a counter other than the target fails with VERIFY_MISMATCH. -/
def State.confirmReplied (s : State) (n : Bus) (frame : List Byte) : State :=
  match s.awaiting n .advance .confirm with
  | none => s
  | some t =>
    match t.request.op with
    | .advance _ target =>
      match judgeReply false none counterData frame with
      | .good c =>
        if c = target then s.completeTransaction n t fun s => s.advanceDone t.bay
        else s.failTransaction n t .verifyMismatch
      | .bad e => s.failTransaction n t e
      | .busy => s
    | _ => s

/-- R43: the reply to a MARK. -/
def State.markReplied (s : State) (n : Bus) (frame : List Byte) : State :=
  match s.awaiting n .mark .reply with
  | none => s
  | some t =>
    match t.request.op with
    | .mark m =>
      match judgeReply false (some ()) noData frame with
      | .good _ => s.completeTransaction n t fun s => s.markDone t.bay m
      | .bad e => s.failTransaction n t e
      | .busy => s
    | _ => s

/-- R44: the reply to a CHECK-READ. -/
def State.checkReplied (s : State) (n : Bus) (frame : List Byte) : State :=
  match s.awaiting n .checkRead .reply with
  | none => s
  | some t =>
    match judgeReply false none counterData frame with
    | .good c => s.completeTransaction n t fun s => s.checkDone t.bay c
    | .bad e => s.failTransaction n t e
    | .busy => s

/-- R26: no reply begins within 2 ms. In BURN the controller awaits none. -/
def State.replyTimedOut (s : State) (n : Bus) : State :=
  match (s.bus n).current with
  | none => s
  | some t => if t.phase = .burn then s else s.failTransaction n t .noResponse

/-- R31: the rest timer expires and the bus becomes free. -/
def State.restExpired (s : State) (n : Bus) : State :=
  s.modBus n fun u => { u with restTimer := none }

end Sys2Proof.Machine
end

