-- ==== Sys2Proof/Machine/ExecBays.lean ====
section
/-! DEFINITION. The meanings of the presence edges, the bays' timers, the start of a re-challenge and the bay's own choice
(R3 to R5, R16, R18, R19, R22, R39). An event that finds nothing to act on changes nothing. The
replies that one event places stand in a free order (`State.together`, log entry 5). -/

namespace Sys2Proof.Machine

/-- PRESENCE_RISE (R3, R4). -/
def execPresenceRise (b : Bay) (s : State) : Host.Outcome State Fault Refusal :=
  let t := s.setPresence b true
  .next (if s.supply.state != .starting && (s.bay b).state = .vacant then t.enterSettling b else t)

/-- R4: a drop in SETTLING returns the bay to VACANT. -/
def State.leaveSettling (s : State) (b : Bay) : State :=
  s.modBay b fun r => { r with state := .vacant, settleTimer := none, settled := false }

/-- PRESENCE_DROP (R3, R4, R16). -/
def execPresenceDrop (b : Bay) (s : State) : Host.Outcome State Fault Refusal :=
  let t := s.setPresence b false
  .next (match (s.bay b).state with
    | .vacant => t
    | .settling => t.leaveSettling b
    | _ => t.together fun t => t.withdraw b)

/-- SETTLE_TIMER_EXPIRY (R5). -/
def execSettleTimerExpiry (b : Bay) (s : State) : Host.Outcome State Fault Refusal :=
  .next (
    if (s.bay b).state = .settling && (s.bay b).settleTimer.isSome then
      if s.supply.state = .normal then s.enterIdentifying b
      else s.modBay b fun r => { r with settleTimer := none, settled := true }
    else s)

/-- RECHALLENGE_TIMER_EXPIRY (R18). -/
def execRechallengeTimerExpiry (b : Bay) (s : State) : Host.Outcome State Fault Refusal :=
  .next (
    if (s.bay b).rechallengeTimer.isSome then
      s.modBay b fun r => { r with rechallengeTimer := none, rechallenge := .waiting }
    else s)

/-- RECHALLENGE_START (R19). -/
def execRechallengeStart (b : Bay) (s : State) : Host.Outcome State Fault Refusal := 
  .next (s.together fun s => s.startRechallenge b)

/-- POST_NEXT_OPERATION (R22). -/
def execPostNextOperation (b : Bay) (s : State) : Host.Outcome State Fault Refusal := 
  .next (s.together fun s => s.chooseNext b)

/-- ANSWER_TIMER_EXPIRY (R39, R40). -/
def execAnswerTimerExpiry (b : Bay) (s : State) : Host.Outcome State Fault Refusal := .next (s.answerTimerExpired b)

end Sys2Proof.Machine
end

