-- ==== Sys2Proof/Machine/ExecBuses.lean ====
section
/-! DEFINITION. The meanings of the grant, the rest timer, the tokens' replies and the engine's end (R26, R28, R31, R38 to R44,
R55). A reply that no phase awaits changes nothing. The replies to requests that one event places stand in a free order
(`State.together`, log entry 5). -/

namespace Sys2Proof.Machine

/-- BUS_GRANT (R28, R29). -/
def execBusGrant (n : Bus) (s : State) : Host.Outcome State Fault Refusal := .next (s.grant n)

/-- REST_TIMER_EXPIRY (R31). -/
def execRestTimerExpiry (n : Bus) (s : State) : Host.Outcome State Fault Refusal := .next (s.restExpired n)

/-- TOKEN_REPLY_TIMEOUT (R26). -/
def execTokenReplyTimeout (n : Bus) (s : State) : Host.Outcome State Fault Refusal :=
  .next (s.together fun s => s.replyTimedOut n)

/-- IDENT_READ_REPLY (R38). -/
def execIdentReadReply (n : Bus) (frame : List Byte) (s : State) : Host.Outcome State Fault Refusal :=
  .next (s.together fun s => s.identityReply n frame)

/-- NONCE_SEND_ACKNOWLEDGEMENT (R39). -/
def execNonceSendAcknowledgement (n : Bus) (frame : List Byte) (s : State) : Host.Outcome State Fault Refusal :=
  .next (s.together fun s => s.nonceReply n frame)

/-- ANSWER_FETCH_REPLY (R40). -/
def execAnswerFetchReply (n : Bus) (frame : List Byte) (s : State) : Host.Outcome State Fault Refusal :=
  .next (s.together fun s => s.fetchReply n frame)

/-- ENGINE_DONE (R55, R56). -/
def execEngineDone (s : State) : Host.Outcome State Fault Refusal := .next (s.together State.engineDone)

/-- ARM_REPLY (R41). -/
def execArmReply (n : Bus) (frame : List Byte) (s : State) : Host.Outcome State Fault Refusal :=
  .next (s.together fun s => s.armReplied n frame)

/-- LOAD_REPLY (R41). -/
def execLoadReply (n : Bus) (frame : List Byte) (s : State) : Host.Outcome State Fault Refusal :=
  .next (s.together fun s => s.loadReplied n frame)

/-- BURN_END (R41). -/
def execBurnEnd (n : Bus) (s : State) : Host.Outcome State Fault Refusal := .next (s.burnEnded n)

/-- CONFIRM_REPLY (R41). -/
def execConfirmReply (n : Bus) (frame : List Byte) (s : State) : Host.Outcome State Fault Refusal :=
  .next (s.together fun s => s.confirmReplied n frame)

/-- MARK_REPLY (R43). -/
def execMarkReply (n : Bus) (frame : List Byte) (s : State) : Host.Outcome State Fault Refusal :=
  .next (s.markReplied n frame)

/-- CHECK_READ_REPLY (R44). -/
def execCheckReadReply (n : Bus) (frame : List Byte) (s : State) : Host.Outcome State Fault Refusal :=
  .next (s.together fun s => s.checkReplied n frame)

end Sys2Proof.Machine
end

