-- ==== Sys2Proof/Machine/Journal.lean ====
section
/-! DEFINITION. The Retention Controller: the layout of headers and records (12.3), classification and replay (R152, R153),
the writer (R146 to R148), compaction and erases (R149, R150) and the DEGRADED mode (R151). A record's or header's bytes
stand in flash from its successful write-done; one that fails or is cut short marks its sector torn at its offset, where
parsing ends (R148, R153, R155). -/

namespace Sys2Proof.Machine

/-! ### Layouts (12.3, R144) -/

/-- A verdict's number (R1, 12.3). -/
def Verdict.code : Verdict → Nat
  | .none => 0
  | .genuine => 1
  | .refilled => 2
  | .clone => 3
  | .rollback => 4

/-- The verdict of a number of the record's state byte; 12.3 gives none for 5 to 7 (log entry 10). -/
def verdictOfCode (n : Nat) : Verdict :=
  match (if n < 5 then n else (Config.verdictBeyond n).val) with
  | 0 => .none
  | 1 => .genuine
  | 2 => .refilled
  | 3 => .clone
  | _ => .rollback

/-- 1 for yes and 0 for no (12.1). -/
def boolNat (p : Bool) : Nat := if p then 1 else 0

/-- A HISTORY record's state byte (12.3). -/
def HistoryRecord.stateByte (r : HistoryRecord) : Byte :=
  BitVec.ofNat 8 (boolNat r.marks.spent + 2 * boolNat r.marks.refill + 4 * boolNat r.retired + 16 * r.lastVerdict.code)

/-- The debt part (12.3). -/
def debtPart (d : Nat × Nat) : List Byte := [0x01#8] ++ beBytes 2 d.1 ++ beBytes 7 d.2 ++ [0#8, 0#8]

/-- The doubt part (12.3). -/
def doubtPart (d : Doubt) : List Byte := [0x02#8] ++ beBytes 2 d.base ++ beBytes 2 d.amount ++ List.replicate 7 0#8

/-- An optional part's bytes. -/
def partBytes {α : Type} (f : α → List Byte) : Option α → List Byte
  | some a => f a
  | none => []

/-- A record's bytes after its head. -/
def JournalRecord.content : JournalRecord → List Byte
  | .history r =>
    beBytes 8 r.serial.toNat ++ beBytes 2 r.classCode.toNat ++ beBytes 2 r.highWater ++ beBytes 4 r.lastSeen ++
      partBytes debtPart r.debt ++ partBytes doubtPart r.doubt
  | .evict x => beBytes 8 x.toNat

/-- A record's kind byte. -/
def JournalRecord.kindByte : JournalRecord → Byte
  | .history _ => 0x01#8
  | .evict _ => 0x02#8

/-- A record's state byte. -/
def JournalRecord.stateByte : JournalRecord → Byte
  | .history r => r.stateByte
  | .evict _ => 0x00#8

/-- R144: a record's size in bytes. -/
def JournalRecord.size : JournalRecord → Nat
  | .history r => 20 + (if r.debt.isSome then 12 else 0) + (if r.doubt.isSome then 12 else 0)
  | .evict _ => 12

/-- 12.3: a record's bytes, its check computed over every byte but byte 2. -/
def JournalRecord.bytes (r : JournalRecord) : List Byte :=
  let length := BitVec.ofNat 8 r.size
  let check := crc8 (r.kindByte :: length :: r.stateByte :: r.content)
  r.kindByte :: length :: check :: r.stateByte :: r.content

/-- 12.3: the marker of a valid header. -/
def validMarker : Nat := 0xA5C30612

/-- The first twelve bytes of a header (12.3, R181). -/
def headerHead (sequence : BitVec 32) : List Byte :=
  beBytes 4 validMarker ++ beBytes 4 sequence.toNat ++ beBytes 2 1 ++ beBytes 2 Config.recordArea

/-- 12.3, R181: a sector's header. -/
def headerBytesOf (sequence : BitVec 32) : List Byte :=
  headerHead sequence ++ beBytes 4 (crc32 (headerHead sequence)).toNat

/-- The 32 bits a header holds for a sequence number (beyond 32 bits left open, log entry 7). -/
def sequenceBits (n : Nat) : BitVec 32 := if n < 2 ^ 32 then BitVec.ofNat 32 n else Config.sequenceBeyond n

/-- R181: the sequence number of a valid header. -/
def readHeader (h : List Byte) : Option Nat :=
  if beNat (slice h 0 4) = validMarker && beNat (slice h 8 2) = 1 && beNat (slice h 10 2) = Config.recordArea &&
    beNat (slice h 12 4) = (crc32 (slice h 0 12)).toNat then some (beNat (slice h 4 4)) else none

/-- A debt part; `none` where its residue is 10¹⁴ fu or more (R181). -/
def readDebtPart (p : List Byte) : Option (Nat × Nat) :=
  if beNat (slice p 3 7) < Config.quantum then some (beNat (slice p 1 2), beNat (slice p 3 7)) else none

/-- A doubt part. -/
def readDoubtPart (p : List Byte) : Doubt := { base := beNat (slice p 1 2), amount := beNat (slice p 3 2) }

/-- R181: the optional parts of a HISTORY record of the given length: the debt part and the doubt part. -/
def readParts (length : Nat) (d : List Byte) : Option (Option (Nat × Nat) × Option Doubt) :=
  let p := slice d 20 12
  let q := slice d 32 12
  if length = 20 then some (none, none)
  else if length = 32 then
    if byteAt p 0 = 0x01#8 then (readDebtPart p).map fun x => (some x, none)
    else if byteAt p 0 = 0x02#8 then some (none, some (readDoubtPart p))
    else none
  else if byteAt p 0 = 0x01#8 && byteAt q 0 = 0x02#8 then (readDebtPart p).map fun x => (some x, some (readDoubtPart q))
  else none

/-- The HISTORY record whose bytes are `d` and whose parts are given. -/
def historyOf (d : List Byte) (parts : Option (Nat × Nat) × Option Doubt) : HistoryRecord where
  serial := BitVec.ofNat 64 (beNat (slice d 4 8))
  classCode := BitVec.ofNat 16 (beNat (slice d 12 2))
  highWater := beNat (slice d 14 2)
  marks := { spent := (byteAt d 3).getLsbD 0, refill := (byteAt d 3).getLsbD 1 }
  retired := (byteAt d 3).getLsbD 2
  lastVerdict := verdictOfCode ((byteAt d 3).toNat / 16 % 8)
  lastSeen := beNat (slice d 16 4)
  debt := parts.1
  doubt := parts.2

/-- Whether a length is that of the kind (R153, R181). -/
def lengthFits (kind : Byte) (length : Nat) : Bool :=
  (kind = 0x01#8 && (length = 20 || length = 32 || length = 44)) || (kind = 0x02#8 && length = 12)

/-- R153, R181: the record at the front of what remains of a sector, with its length; `none` where parsing ends. -/
def readRecord (rest : List Byte) : Option (JournalRecord × Nat) :=
  let kind := byteAt rest 0
  let length := (byteAt rest 1).toNat
  let d := rest.take length
  if rest.length < 4 || !lengthFits kind length || decide (rest.length < length) then none
  else if crc8 (d.take 2 ++ d.drop 3) != byteAt d 2 then none
  else if kind = 0x02#8 then some (.evict (BitVec.ofNat 64 (beNat (slice d 4 8))), length)
  else (readParts length d).map fun parts => (.history (historyOf d parts), length)

/-- R153: the records of a sector's record area, in order; `fuel` bounds their number. -/
def readRecords : Nat → List Byte → List JournalRecord
  | 0, _ => []
  | fuel + 1, rest =>
    match readRecord rest with
    | some (r, n) => r :: readRecords fuel (rest.drop n)
    | none => []

/-- The bytes of a sector's record area that can be parsed: up to where a torn write begins. -/
def Journal.area (j : Journal) (x : Sector) : List Byte :=
  let limit := match j.sectors[x].torn with
    | some off => off - Config.headerBytes
    | none => Config.recordArea
  j.flash.readBytes (sectorAddr x Config.headerBytes) (min limit Config.recordArea)

/-- R153: the records that stand in a sector. A record takes at least 12 bytes. -/
def Journal.recordsIn (j : Journal) (x : Sector) : List JournalRecord :=
  readRecords (Config.recordArea / 12) (j.area x)

/-! ### The newest-record map (R149) -/

/-- Note a sector as a serial's newest. -/
def noteNewest (m : List (Serial × Sector)) (x : Serial) (y : Sector) : List (Serial × Sector) :=
  (m.filter fun e => e.1 != x) ++ [(x, y)]

/-- The sector of a serial's newest record. -/
def newestOf (m : List (Serial × Sector)) (x : Serial) : Option Sector :=
  (m.find? fun e => e.1 = x).map (·.2)

/-! ### Sectors (R143, R147) -/

/-- How many sectors are ERASED. -/
def Journal.erasedCount (j : Journal) : Nat :=
  (allSectors.filter fun x => j.sectors[x].state = .erased).length

/-- How many sectors are usable: not FAILED (R143). -/
def Journal.usableCount (j : Journal) : Nat :=
  (allSectors.filter fun x => j.sectors[x].state != .failed).length

/-- The ACTIVE sector, if any. -/
def Journal.active (j : Journal) : Option Sector :=
  allSectors.find? fun x => j.sectors[x].state = .active

/-- The largest sequence number among some sectors, 0 with none. -/
def largestSequence : List SectorRec → Nat
  | [] => 0
  | r :: rest => max (r.sequence.getD 0) (largestSequence rest)

/-- R143: the sequence number the next opening writes. A sector whose header write failed, a FAILED one and one being erased count
with the number they were opened with, though their headers may not stand: the model's choice (log entry 30). -/
def Journal.nextSequence (j : Journal) : Nat :=
  if allSectors.all fun x => j.sectors[x].sequence.isNone then Config.firstSequence.toNat
  else largestSequence j.sectors.toList + 1

/-- R147: whether the writer may open a sector. While DEGRADED no sector is opened (R151). -/
def Journal.mayOpen (j : Journal) (p : SupplyState) : Bool :=
  j.mode = .normal && decide ((if p = .normal then 2 else 1) ≤ j.erasedCount)

/-- The lowest-numbered ERASED sector. -/
def Journal.lowestErased (j : Journal) : Option Sector :=
  allSectors.find? fun x => j.sectors[x].state = .erased

/-- Change one sector's record. -/
def Journal.modSector (j : Journal) (x : Sector) (f : SectorRec → SectorRec) : Journal :=
  { j with sectors := upd j.sectors x f }

/-- R146, R148: the ACTIVE sector becomes FULL. -/
def Journal.fillActive (j : Journal) : Journal :=
  match j.active with
  | some x => { (j.modSector x fun r => { r with state := .full }) with room := 0 }
  | none => j

/-- R147: a sector becomes ACTIVE with the next sequence number, its header write begins, and a record waits for it. -/
def Journal.openSector (j : Journal) (x : Sector) (source : RecordSource) (r : JournalRecord) : Journal :=
  let n := j.nextSequence
  { (j.modSector x fun e => { e with state := .active, sequence := some n }) with
    room := Config.recordArea, writer := .header x source r }

/-! ### DEGRADED (R151) -/

/-- R151: the journal becomes DEGRADED, unless it is so already. -/
def State.degrade (s : State) : State :=
  if s.journal.mode = .degraded then s
  else (s.modJournal fun j =>
    { j with
      mode := .degraded
      appendSet := []
      compaction := match j.compaction with | .copying _ _ => .idle | c => c }).raisePart .journalDegraded

/-! ### Erases (R150) -/

/-- R150: an erase begins by writing the marker to its retired value. The marker as it stood is kept until the erase ends. -/
def Journal.beginErase (j : Journal) (x : Sector) : Journal :=
  let marker := BitVec.ofNat 32 (beNat (j.flash.readBytes (sectorAddr x 0) 4))
  { (j.modSector x fun r => { r with erasing := some marker }) with
    flash := j.flash.writeBytes (sectorAddr x 0) [0#8, 0#8, 0#8, 0#8] }

/-- R150: compaction reaches its erasing step: the erase begins, or is held while the supply state is SAVE or EXPIRED. -/
def State.compactionErase (s : State) (x : Sector) : State :=
  if s.supply.saving then s.modJournal fun j => { j with compaction := .eraseHeld x }
  else s.modJournal fun j => { j.beginErase x with compaction := .erasing x }

/-! ### Compaction (R149) -/

/-- The FULL sectors that no erase is running on, oldest first. The age of one whose header write failed is the number it was
opened with, the model's choice (log entry 30). -/
def Journal.fullByAge (j : Journal) : List Sector :=
  let full := allSectors.filter fun x => j.sectors[x].state = .full && j.sectors[x].erasing.isNone
  full.foldr (fun x acc => insertByAge (j.sectors[x].sequence.getD 0) x acc) []
where
  /-- Insert a sector into a list in order of age. -/
  insertByAge (n : Nat) (x : Sector) : List Sector → List Sector
    | [] => [x]
    | y :: rest => if n ≤ j.sectors[y].sequence.getD 0 then x :: y :: rest else y :: insertByAge n x rest

/-- Serials in the order of their last occurrence. -/
def keepLast : List Serial → List Serial
  | [] => []
  | x :: rest => if rest.contains x then keepLast rest else x :: keepLast rest

/-- R149: the serials whose newest record lies in a sector, in the order those records stand there. -/
def Journal.subjects (j : Journal) (x : Sector) : List Serial :=
  (keepLast ((j.recordsIn x).map (·.serial))).filter fun y => newestOf j.newest y = some x

/-- R149: the subjects of a sector that have an entry, and so need a copy. -/
def State.copiesNeeded (s : State) (x : Sector) : List Serial :=
  (s.journal.subjects x).filter fun y => (s.entry y).isSome

/-- Whether the copies of some serials fit in the room of the ACTIVE sector. -/
def State.copiesFit (s : State) (ys : List Serial) : Bool :=
  decide ((ys.map fun y => (s.recordOf y).size).sum ≤ s.journal.room)

/-- R149: the sector compaction chooses. -/
def State.compactionChoice (s : State) : Option Sector :=
  match s.journal.fullByAge with
  | [] => none
  | x :: rest =>
    if s.copiesFit (s.copiesNeeded x) || s.journal.mayOpen s.supply.state then some x
    else match (x :: rest).find? fun y => (s.copiesNeeded y).isEmpty with
      | some y => some y
      | none => some x

/-- R149: begin compacting a sector: copy its subjects, or erase it at once if it needs no copy. -/
def State.compact (s : State) (x : Sector) : State :=
  match s.copiesNeeded x with
  | [] => s.compactionErase x
  | ys => s.modJournal fun j => { j with compaction := .copying x ys }

/-- R154: the erases of INVALID sectors that start-up waits for. -/
def Journal.invalidErasesRun (j : Journal) : Bool :=
  allSectors.any fun x => j.sectors[x].state = .invalid

/-- R149, R154: whether compaction may start. R149 says that in NORMAL or STARTING it starts with two or fewer sectors ERASED, and
that it is checked "during start-up as R154 states"; R154 runs it once the INVALID sectors have been erased, and only with
fewer than two ERASED. The model takes R154's words for STARTING (log entry 42). -/
def State.compactionMayStart (s : State) : Bool :=
  s.journal.compaction = .idle && s.journal.mode = .normal &&
  match s.supply.state with
  | .normal => decide (s.journal.erasedCount ≤ 2)
  | .starting => decide (s.journal.erasedCount < 2) && !s.journal.invalidErasesRun && !s.journal.startupDone
  | .save | .expired => false

/-- R149: compaction starts from idle if it may. -/
def State.checkCompaction (s : State) : State :=
  if s.compactionMayStart then
    match s.compactionChoice with
    | some x => s.compact x
    | none => s
  else s

/-- The copy compaction would hand the writer next, subjects without an entry skipped (R149). -/
def State.nextCopies (s : State) : Option (Sector × List Serial) :=
  match s.journal.compaction with
  | .copying x ys => some (x, ys.dropWhile fun y => (s.entry y).isNone)
  | _ => none

/-! ### The writer (R146 to R148) -/

/-- Take a serial out of the append set. -/
def Journal.leaveSet (j : Journal) (x : Serial) : Journal :=
  { j with appendSet := j.appendSet.filter fun y => y != x }

/-- R146: write a record into the ACTIVE sector, or open a sector for it; `none` where no sector may be opened. The ACTIVE
sector it does not fit has then become FULL. -/
def State.placeRecord (s : State) (source : RecordSource) (r : JournalRecord) : State × Bool :=
  match s.journal.active with
  | some x =>
    if r.size ≤ s.journal.room then (s.modJournal fun j => { j with writer := .record x source r, copyStale := false }, true)
    else openFor (s.modJournal Journal.fillActive)
  | none => openFor s
where
  /-- Open a sector for the record if R147 allows. -/
  openFor (s : State) : State × Bool :=
    if s.journal.mayOpen s.supply.state then
      match s.journal.lowestErased with
      | some x => (s.modJournal fun j => j.openSector x source r, true)
      | none => (s, false)
    else (s, false)

/-- R146: the writer takes the serial at the head of the append set; if its record cannot be placed, it stays at the head. -/
def State.takeFromSet (s : State) : State :=
  match s.journal.appendSet with
  | [] => s
  | x :: _ =>
    let (t, placed) := s.placeRecord .appendSet (s.recordOf x)
    if placed then t.modJournal fun j => j.leaveSet x else t

/-- R146, R149: the writer takes a compaction copy; one that cannot be placed makes the journal DEGRADED (R151). -/
def State.takeCopy (s : State) (y : Serial) : State :=
  let (t, placed) := s.placeRecord .compactionCopy (s.recordOf y)
  if placed then t else t.degrade

/-- R146: the idle writer takes its next record. -/
def State.takeRecord (s : State) : State :=
  if s.journal.writer = .idle && s.journal.mode = .normal then
    if s.supply.saving then s.takeFromSet
    else match s.nextCopies with
      | some (x, y :: ys) => (s.modJournal fun j => { j with compaction := .copying x (y :: ys) }).takeCopy y
      | some (x, []) =>
        let s := s.compactionErase x
        if s.supply.state = .normal then s.takeFromSet else s
      | none => if s.supply.state = .normal then s.takeFromSet else s
  else s

/-- The offset in its sector at which the record in progress is written. -/
def Journal.writeOffset (j : Journal) : Nat := Config.sectorBytes - j.room

/-- R149: a copy has been written: its serial leaves the append set, "since it carries the same state", and after the last copy
the sector is erased. A serial that an event has put into the set since the copy's write began stays in its place, since the
copy lacks the state of that event; its later record is still to come (R145; log entry 31). -/
def State.copyWritten (s : State) (y : Serial) : State :=
  let s := if s.journal.copyStale then s else s.modJournal fun j => j.leaveSet y
  match s.journal.compaction with
  | .copying x ys =>
    let ys := ys.drop 1
    if ys.isEmpty then s.compactionErase x else s.modJournal fun j => { j with compaction := .copying x ys }
  | _ => s

/-- R146: a record write succeeds. -/
def State.recordWritten (s : State) (x : Sector) (source : RecordSource) (r : JournalRecord) : State :=
  let s := s.modJournal fun j =>
    { j with
      flash := j.flash.writeBytes (sectorAddr x j.writeOffset) r.bytes
      room := j.room - r.size
      failures := 0
      newest := noteNewest j.newest r.serial x
      writer := .idle }
  match source with
  | .appendSet => s
  | .compactionCopy => s.copyWritten r.serial

/-- R148: a failed record or header write's fault record. -/
def writeFaultRecord (k : TransactionKind) (p : Phase) (e : ErrorKind) (attempt : Nat) (x : Sector) : FaultRecord where
  bay := none
  place := .journal
  transaction := k
  phase := p
  error := e
  attempt := attempt
  detail := x.val

/-- R148: a serial whose record failed returns to the head of the append set; while DEGRADED the set stays empty. -/
def Journal.returnSerial (j : Journal) (source : RecordSource) (x : Serial) : Journal :=
  match source, j.mode with
  | .appendSet, .normal => { j with appendSet := x :: j.appendSet.filter fun y => y != x }
  | _, _ => j

/-- R147, R148: a write into sector `x` at offset `off` fails: its fault record is written, the sector becomes FULL, the serial
returns, and the second consecutive failure makes the journal DEGRADED. The sector keeps its sequence number, also where the
failed write was its header's (log entry 30). -/
def State.writeFailed (s : State) (x : Sector) (off : Nat) (source : RecordSource) (r : JournalRecord) (k : TransactionKind)
    (p : Phase) (e : ErrorKind) : State :=
  let count := s.journal.failures + 1
  let s := s.writeFault (writeFaultRecord k p e count x)
  let s := s.modJournal fun j =>
    { ((j.modSector x fun y => { y with state := .full, torn := some off }).returnSerial source r.serial) with
      room := 0, failures := count, writer := .idle }
  if count < 2 then s else s.degrade

/-- R146, R148: the record write ends, with success or with the error kind of its failure. -/
def State.recordWriteEnd (s : State) (e : Option ErrorKind) : State :=
  match s.journal.writer with
  | .record x source r =>
    match e with
    | none => s.recordWritten x source r
    | some e => s.writeFailed x s.journal.writeOffset source r .recordWrite .write e
  | _ => s

/-- The record waiting for a sector, as it is written once the header stands: a compaction copy is "read from the Refill Watch at
the moment it is written", and "a subject that has lost its entry by the time its copy would be taken is skipped": then no record
is written (R149; log entry 31). -/
def State.waitingRecord (s : State) (source : RecordSource) (r : JournalRecord) : Option JournalRecord :=
  match source with
  | .appendSet => some r
  | .compactionCopy => if (s.entry r.serial).isSome then some (s.recordOf r.serial) else none

/-- R147, R149: the writer once the header stands: it writes the record that waited for the sector, or is idle if that was a copy
whose subject is skipped. -/
def State.writerAfterHeader (s : State) (x : Sector) (source : RecordSource) (r : JournalRecord) : Writer :=
  match s.waitingRecord source r with
  | some r => .record x source r
  | none => .idle

/-- R147: the header write ends: on success the waiting record is written into the sector; on failure the sector is FULL with
no records and its header torn. Compaction is checked after the opening (R149). -/
def State.headerWriteEnd (s : State) (e : Option ErrorKind) : State :=
  match s.journal.writer with
  | .header x source r =>
    match e with
    | none =>
      (s.modJournal fun j =>
        { j with
          flash := j.flash.writeBytes (sectorAddr x 0) (headerBytesOf (sequenceBits (j.sectors[x].sequence.getD 0)))
          writer := s.writerAfterHeader x source r
          copyStale := false }).checkCompaction
    | some e => (s.writeFailed x 0 source r .sectorOpen .header e).checkCompaction
  | _ => s

/-! ### The end of an erase (R150) -/

/-- R149: a sector's serials leave the newest-record map. -/
def Journal.forgetSector (j : Journal) (x : Sector) : Journal :=
  { j with newest := j.newest.filter fun e => e.2 != x }

/-- Compaction, erasing this sector, becomes idle. -/
def Journal.eraseEnded (j : Journal) (x : Sector) : Journal :=
  { j with compaction := if j.compaction = .erasing x then .idle else j.compaction }

/-- R150: the erase of a sector succeeds. -/
def State.eraseSucceeded (s : State) (x : Sector) : State :=
  (s.modJournal fun j =>
    ((({ j with flash := j.flash.eraseSector x }.modSector x fun _ =>
      { state := .erased, sequence := none, torn := none, erasing := none }).forgetSector x).eraseEnded x)).checkCompaction

/-- R150: the erase of a sector fails. Where the marker write had failed, the marker stands as it stood. -/
def State.eraseFailed (s : State) (x : Sector) (e : ErrorKind) (markerRetired : Bool) : State :=
  let marker := (s.sector x).erasing.getD 0
  let s := s.writeFault (writeFaultRecord .erase .erase e 1 x)
  let s := s.modJournal fun j =>
    let flash := if markerRetired then j.flash else j.flash.writeBytes (sectorAddr x 0) (beBytes 4 marker.toNat)
    (({ j with flash := flash }.modSector x fun r => { r with state := .failed, erasing := none }).forgetSector x).eraseEnded x
  if s.journal.usableCount < 3 then s.degrade else s.checkCompaction

/-- Whether an erase of the sector is running. -/
def State.eraseRuns (s : State) (x : Sector) : Bool := (s.sector x).erasing.isSome

/-! ### Classification and replay (R152, R153) -/

/-- R152, R181: what start-up finds a sector to be: its state, with its sequence number if its header is valid. -/
def Journal.classify (j : Journal) (x : Sector) : SectorRec :=
  let r := j.sectors[x]
  if r.torn = some 0 then { state := .invalid, sequence := none, torn := r.torn, erasing := none }
  else if j.flash.sectorBlank x then { state := .erased, sequence := none, torn := none, erasing := none }
  else match readHeader (j.flash.readBytes (sectorAddr x 0) Config.headerBytes) with
    | some n => { state := .full, sequence := some n, torn := r.torn, erasing := none }
    | none => { state := .invalid, sequence := none, torn := r.torn, erasing := none }

/-- R155: what a cold reset leaves of the write in progress: a torn record or a torn header. -/
def Journal.cutShort (j : Journal) : Journal :=
  match j.writer with
  | .idle => j
  | .header x _ _ => j.modSector x fun r => { r with torn := some 0 }
  | .record x _ _ => j.modSector x fun r => { r with torn := some j.writeOffset }

/-- R152, 8.6: the Retention Controller after a cold reset, its sectors classified afresh. -/
def Journal.afterReset (j : Journal) : Journal where
  flash := j.cutShort.flash
  sectors := Vector.ofFn fun x => j.cutShort.classify x
  room := 0
  mode := .normal
  appendSet := []
  writer := .idle
  failures := 0
  newest := []
  compaction := .idle
  startupDone := false
  copyStale := false

/-- R153: an entry as a HISTORY record gives it, at a table index. -/
def HistoryRecord.toEntry (r : HistoryRecord) (i : Nat) : HistoryEntry where
  index := i
  serial := r.serial
  classCode := r.classCode
  highWater := r.highWater
  marks := r.marks
  retired := r.retired
  lastVerdict := r.lastVerdict
  debtQuanta := (r.debt.getD (0, 0)).1
  debtResidue := (r.debt.getD (0, 0)).2
  doubt := r.doubt
  lastSeen := r.lastSeen
  bay := none

/-- R153: a record acts on the table. -/
def State.replayRecord (s : State) (x : Sector) (r : JournalRecord) : State :=
  let s := s.modJournal fun j => { j with newest := noteNewest j.newest r.serial x }
  match r with
  | .history h =>
    match s.entry h.serial with
    | some _ => s.modEntry h.serial fun e => h.toEntry e.index
    | none =>
      s.makeRoom.modRefill fun w => { w with table := insertEntry (h.toEntry (lowestFree w.table)) w.table }
  | .evict y => s.modRefill fun w => { w with table := w.table.filter fun e => e.serial != y }

/-- R153: replay a sector. -/
def State.replaySector (s : State) (x : Sector) : State :=
  (s.journal.recordsIn x).foldl (fun s r => s.replayRecord x r) s

/-- R121: the admission sequence after the replay. -/
def rebuiltSequence (t : List HistoryEntry) : Nat :=
  if t.isEmpty then 0 else nextSequence ((t.map (·.lastSeen)).foldl max 0)

/-- R153, R121: replay the valid sectors in increasing order of sequence number, and set the admission sequence. -/
def State.replay (s : State) : State :=
  let s := s.journal.fullByAge.foldl State.replaySector s
  s.modRefill fun w => { w with sequence := rebuiltSequence w.table }

/-- R154: start-up erases every INVALID sector, and starts compaction if that is due. -/
def State.startErases (s : State) : State :=
  (allSectors.foldl (fun s x => if (s.sector x).state = .invalid then s.modJournal fun j => j.beginErase x else s) s).checkCompaction

/-- R154: whether the start-up work has come to its end. -/
def State.startupOver (s : State) : Bool :=
  s.supply.state = .starting && !s.journal.startupDone && !s.journal.invalidErasesRun &&
  (allSectors.all fun x => !s.eraseRuns x) &&
  (s.journal.mode = .degraded ||
    (s.journal.compaction = .idle && (decide (2 ≤ s.journal.erasedCount) || s.journal.fullByAge.isEmpty)))

/-- R154: the start-up work is complete; a start-up that cannot reach two ERASED sectors makes the journal DEGRADED. -/
def State.startupComplete (s : State) : State :=
  let s := if s.journal.erasedCount < 2 then s.degrade else s
  s.modJournal fun j => { j with startupDone := true }

/-! ### The save burst and the return to NORMAL (R145, R141) -/

/-- R145: the seated serials, in increasing bay order, each at the place of its lower bay. -/
def State.seatedSerials (s : State) : List Serial :=
  allBays.foldl (fun acc b =>
    match (s.bay b).identityPage, (s.bay b).usagePage with
    | some i, some _ => if acc.contains i.serial then acc else acc ++ [i.serial]
    | _, _ => acc) []

/-- R145: the save burst. While DEGRADED no serial joins the set. It puts the seated serials into the set, so a copy of one of them
that is being written is stale (R149; log entry 31). -/
def State.saveBurst (s : State) : State :=
  if s.journal.mode = .degraded then s
  else
    let seated := s.seatedSerials
    s.modJournal fun j =>
      { j with
        appendSet := seated ++ j.appendSet.filter fun x => !seated.contains x
        copyStale := j.copyStale || seated.any j.copying }

/-- R141, R149, R150, R151: the Retention Controller at the return to NORMAL. -/
def State.journalReturn (s : State) : State :=
  let s := if s.journal.erasedCount = 0 then s.degrade else s
  let s := match s.journal.compaction with
    | .eraseHeld x => s.compactionErase x
    | _ => s
  s.checkCompaction

end Sys2Proof.Machine
end

