-- ==== Sys2Proof/Machine/ExecJournal.lean ====
section
/-! DEFINITION. The meanings of the journal's events (R146 to R150). An end of a write or of an erase that is not running changes
nothing: "a write-done event that comes later is ignored" (R146, R150). -/

namespace Sys2Proof.Machine

/-- WRITER_TAKE_RECORD (R146). -/
def execWriterTakeRecord (s : State) : Host.Outcome State Fault Refusal := .next s.takeRecord

/-- The error kind of a write-done or erase-done event: none on success, FLASH_ERROR on failure (R148). -/
def flashError (ok : Bool) : Option ErrorKind := if ok then none else some .flashError

/-- RECORD_WRITE_DONE (R146). -/
def execRecordWriteDone (ok : Bool) (s : State) : Host.Outcome State Fault Refusal := .next (s.recordWriteEnd (flashError ok))

/-- RECORD_WRITE_TIMEOUT (R146). -/
def execRecordWriteTimeout (s : State) : Host.Outcome State Fault Refusal := .next (s.recordWriteEnd (some .timeout))

/-- HEADER_WRITE_DONE (R147). -/
def execHeaderWriteDone (ok : Bool) (s : State) : Host.Outcome State Fault Refusal := .next (s.headerWriteEnd (flashError ok))

/-- HEADER_WRITE_TIMEOUT (R147). -/
def execHeaderWriteTimeout (s : State) : Host.Outcome State Fault Refusal := .next (s.headerWriteEnd (some .timeout))

/-- ERASE_DONE (R150). -/
def execEraseDone (x : Sector) (r : EraseResult) (s : State) : Host.Outcome State Fault Refusal :=
  .next (
    if s.eraseRuns x then
      match r with
      | .success => s.eraseSucceeded x
      | .failure retired => s.eraseFailed x .flashError retired
    else s)

/-- ERASE_TIMEOUT (R150). -/
def execEraseTimeout (x : Sector) (markerRetired : Bool) (s : State) : Host.Outcome State Fault Refusal :=
  .next (if s.eraseRuns x then s.eraseFailed x .timeout markerRetired else s)

end Sys2Proof.Machine
end

