-- ==== Sys2Proof/Machine/Replies.lean ====
section
/-! DEFINITION. The payloads of the replies, laid out as 12.1 gives them: each reply's fields in the order of its entry, with
the sizes of 12.1. -/

namespace Sys2Proof.Machine

/-! ### Numbers of enumerated fields (12.1: numbered from 0 in the order of their rule) -/

def RejectReason.code : RejectReason → Nat
  | .none => 0
  | .authFailed => 1
  | .wrongClass => 2
  | .unknownIssuer => 3
  | .clone => 4
  | .rollback => 5

def Rechallenge.code : Rechallenge → Nat
  | .idle => 0
  | .waiting => 1
  | .running => 2

def TransactionKind.code : TransactionKind → Nat
  | .identRead => 0
  | .nonceSend => 1
  | .answerFetch => 2
  | .advance => 3
  | .mark => 4
  | .checkRead => 5
  | .recordWrite => 6
  | .sectorOpen => 7
  | .erase => 8

def Phase.code : Phase → Nat
  | .reply => 0
  | .acknowledgement => 1
  | .fetch => 2
  | .arm => 3
  | .load => 4
  | .burn => 5
  | .confirm => 6
  | .write => 7
  | .header => 8
  | .erase => 9

def ErrorKind.code : ErrorKind → Nat
  | .noResponse => 0
  | .frameError => 1
  | .refused => 2
  | .verifyMismatch => 3
  | .aborted => 4
  | .flashError => 5
  | .timeout => 6

def Place.code : Place → Nat
  | .bus n => n.val
  | .journal => 3

def Metering.code : Metering → Nat
  | .metered => 0
  | .unmetered => 1

def CommitState.code : CommitState → Nat
  | .idle => 0
  | .advance => 1
  | .check => 2

def SlotState.code : SlotState → Nat
  | .empty => 0
  | .enabled => 1
  | .revoked => 2

def SupplyState.code : SupplyState → Nat
  | .starting => 0
  | .normal => 1
  | .save => 2
  | .expired => 3

def JournalMode.code : JournalMode → Nat
  | .normal => 0
  | .degraded => 1

def Tolerance.code : Tolerance → Nat
  | .accept => 0
  | .refuse => 1

/-- The result codes (12.1). -/
def ResultCode.code : ResultCode → Byte
  | .ok => 0x00#8
  | .clamped => 0x01#8
  | .busy => 0x10#8
  | .duplicateTag => 0x11#8
  | .unknownKind => 0x12#8
  | .badLength => 0x13#8
  | .badValue => 0x14#8
  | .privilege => 0x15#8
  | .state => 0x20#8
  | .notDrawable => 0x21#8
  | .inProgress => 0x22#8
  | .saving => 0x23#8
  | .starting => 0x24#8
  | .bayOccupied => 0x25#8
  | .noEntry => 0x26#8
  | .failed => 0x30#8

/-! ### Fields -/

/-- A one-byte number. -/
def byteOf (n : Nat) : Byte := BitVec.ofNat 8 n

/-- A yes-or-no field. -/
def boolByte (p : Bool) : Byte := byteOf (boolNat p)

/-- ATTN in STATUS, numbered in the order R176 lists its values (12.1): asserted 0, deasserted 1. -/
def attnByte (asserted : Bool) : Byte := if asserted then 0x00#8 else 0x01#8

/-- A field that legal values fill, preceded by its presence flag and sent as 0 while absent (12). -/
def flagged (n : Nat) : Option Nat → List Byte
  | some v => 0x01#8 :: beBytes n v
  | none => 0x00#8 :: beBytes n 0

/-- A one-byte field whose all-ones value stands for none (12). -/
def orNone : Option Nat → Byte
  | some v => byteOf v
  | none => 0xFF#8

/-- A time left, 0xFFFFFFFF while stopped (12). -/
def timeLeft : Option Nat → List Byte
  | some t => beBytes 4 t
  | none => beBytes 4 0xFFFFFFFF

/-- A set of marks: bit 0 SPENT, bit 1 REFILL (12.1). -/
def Marks.byte (k : Marks) : Byte := byteOf (boolNat k.spent + 2 * boolNat k.refill)

/-- The drain demands: bit 0 FLUSH, bit 1 RELEASE, bit 2 SAVE (12.1, R82). -/
def Drain.byte (d : Drain) : Byte := byteOf (boolNat d.flush + 2 * boolNat d.release + 4 * boolNat d.save)

/-! ### Queries (11.2) -/

/-- R48, R175: the issuer tag of slot `k`, as IDENT reports it. That of a slot revoked while EMPTY, which no rule states, is a free
value (log entry 9). -/
def slotTag (k : SlotNo) (x : Slot) : BitVec 32 :=
  match x.state, x.tag with
  | .empty, _ => 0
  | _, some t => t
  | _, none => Config.tagOfUnloadedSlot k.val

/-- R175: the fixed capacities, in the order R175 lists them. -/
def fixedCapacities : List Nat := [12, 3, 4, 192, 8, 4096, 8, 8]

/-- R175: the IDENT reply. -/
def identReply (s : State) : List Byte :=
  beBytes 2 0x414B ++ beBytes 2 0x0612 ++ [Config.designStep] ++ beBytes 8 Config.deviceNumber.toNat ++
    (fixedCapacities.flatMap (beBytes 2)) ++
    (allSlots.flatMap fun k => byteOf (s.slot k).state.code :: beBytes 4 (slotTag k (s.slot k)).toNat)

/-- R176: the six sector counts, in the order R176 lists them. -/
def sectorCounts (s : State) : List Byte :=
  [SectorState.erased, .active, .full, .invalid, .failed, .unclassified].map fun t => byteOf (s.sectorCount t)

/-- R176: the STATUS reply. -/
def statusReply (s : State) : List Byte :=
  [byteOf s.supply.state.code] ++ beBytes 4 (s.supply.deadline.getD 0) ++ [boolByte s.journal.startupDone] ++
    [byteOf s.journal.mode.code] ++ sectorCounts s ++ beBytes 2 (min s.journal.appendSet.length 65535) ++
    [byteOf s.refill.table.length] ++ beBytes 4 s.refill.sequence ++ (allBays.map fun b => (s.bay b).state.code) ++
    beBytes 4 s.link.rate ++ [byteOf s.dispatcher.strapFloor, byteOf s.dispatcher.lockFloor] ++
    [boolByte s.settings.hold] ++ [byteOf s.dispatcher.queue.length] ++ [attnByte s.attn] ++
    [byteOf s.notice.faults.length]

/-- R177: the bay part of the BAY-QUERY reply. The format version goes with a presence flag: any byte is a legal version (R32), so
none is left to say that it is absent, though 12 names only serial, class code, capacity and doubt as flagged. The model's
choice (log entry 23). -/
def bayPart (s : State) (b : Bay) : List Byte :=
  let r := s.bay b
  [r.state.code, byteOf r.rejectReason.code, byteOf r.verdict.code] ++
    flagged 8 (r.serial.map (·.toNat)) ++ flagged 8 (r.identityPage.map (·.serial.toNat)) ++
    flagged 2 (r.identityPage.map (·.classCode.toNat)) ++ flagged 2 (r.identityPage.map (·.capacity)) ++
    flagged 1 (r.identityPage.map (·.version.toNat)) ++
    [orNone (r.slot.map (·.val))] ++ beBytes 2 r.expectedClass.toNat ++
    [byteOf r.readAttempts, byteOf r.mismatches, byteOf r.commFailures] ++
    [byteOf r.rechallenge.code] ++ timeLeft r.rechallengeTimer ++ [orNone ((s.postedKind b).map (·.code))]

/-- 12.1: the calibration copy, k signed; all ones while absent. -/
def calibrationBytes : Option CalibrationCopy → List Byte
  | some c =>
    beBytes 2 c.vS ++ beBytes 2 c.vM ++ beBytes 2 c.vL ++ beBytes 2 (BitVec.ofInt 16 c.k).toNat ++ beBytes 2 c.vp
  | none => List.replicate 10 0xFF#8

/-- 12.1: the token bands. -/
def bandBytes (bs : List TokenBand) : List Byte :=
  byteOf bs.length :: bs.flatMap fun t => beBytes 2 t.bound ++ [byteOf t.mode.rank]

/-- R177: the account part. -/
def accountPart (s : State) (b : Bay) : List Byte :=
  let a := s.account b
  [boolByte a.live, byteOf a.metering.code] ++ beBytes 2 a.capacity ++ calibrationBytes a.calibration ++ bandBytes a.bands ++
    [byteOf a.index, boolByte a.writeProtect] ++
    beBytes 2 a.committed ++ beBytes 2 a.pending ++ beBytes 2 a.inFlight ++ beBytes 2 a.target ++
    beBytes 8 a.residue ++ beBytes 2 a.overdraw ++ beBytes 2 a.unmeteredCount ++
    [byteOf a.mode.rank, byteOf a.commitState.code, byteOf a.failures, a.drain.byte, boolByte a.lowNotified,
     byteOf a.senseCount] ++
    beBytes 2 (s.allowance b) ++ beBytes 2 (s.level b)

/-- A mark order's two bytes: held, and attempts made. -/
def orderBytes (os : List MarkOrder) (m : Mark) : List Byte :=
  match os.find? fun o => o.mark = m with
  | some o => [0x01#8, byteOf o.attempts]
  | none => [0x00#8, 0x00#8]

/-- R177: the BAY-QUERY reply. -/
def bayQueryReply (s : State) (b : Bay) : List Byte :=
  bayPart s b ++ accountPart s b ++ orderBytes (s.markOrders b) .spent ++ orderBytes (s.markOrders b) .refill

/-- A doubt: one flag, base and amount. -/
def doubtBytes : Option Doubt → List Byte
  | some d => 0x01#8 :: (beBytes 2 d.base ++ beBytes 2 d.amount)
  | none => 0x00#8 :: (beBytes 2 0 ++ beBytes 2 0)

/-- R136: the HISTORY-QUERY reply. -/
def historyReply (e : HistoryEntry) : List Byte :=
  beBytes 8 e.serial.toNat ++ beBytes 2 e.classCode.toNat ++ beBytes 2 e.highWater ++ [e.marks.byte, boolByte e.retired,
    byteOf e.lastVerdict.code] ++ beBytes 2 e.debtQuanta ++ beBytes 8 e.debtResidue ++ doubtBytes e.doubt ++
    beBytes 4 e.lastSeen ++ [orNone (e.bay.map (·.val)), byteOf e.index]

/-- The kinds whose source is set, in the order of R160: decreasing priority, then increasing code. The codes of 12.1 already
stand in that order. -/
def setKinds (s : State) : List NoticeKind := allNotices.filter s.sourceSet

/-- The bay set of an item: two bytes for a bay kind, none for a part kind (R160). -/
def bayBytes (s : State) (k : NoticeKind) : List Byte :=
  if k.isPart then [] else beBytes 2 (s.source k).bays.toNat

/-- R160: an item of the NOTICES reply. -/
def noticeItem (s : State) (k : NoticeKind) : List Byte :=
  [byteOf k.code, byteOf k.priority, boolByte (s.enabled k), boolByte (s.pendingNotice k)] ++ bayBytes s k

/-- R160: the NOTICES reply. It reports whether ATTN is asserted, a yes-or-no field (12.1). -/
def noticesReply (s : State) : List Byte :=
  [byteOf s.notice.mask, boolByte s.attn] ++ (setKinds s).flatMap (noticeItem s)

/-- R161: the ACK-NOTICES reply: the kinds still set, by kind and bay set. -/
def ackReply (s : State) : List Byte :=
  (setKinds s).flatMap fun k => byteOf k.code :: bayBytes s k

/-- 12.1: a fault record's 8 bytes. -/
def faultBytes (f : FaultRecord) : List Byte :=
  [orNone (f.bay.map (·.val)), byteOf f.place.code, byteOf f.transaction.code, byteOf f.phase.code, byteOf f.error.code,
   byteOf f.attempt] ++ beBytes 2 f.detail

/-- R163: the FAULTS reply. -/
def faultsReply (s : State) : List Byte :=
  byteOf s.notice.faults.length :: s.notice.faults.flatMap faultBytes

/-! ### Reports and settings -/

/-- R81: an entry reply. -/
structure EntryReply where
  result : ResultCode
  q : Nat
  committed : Nat
  pending : Nat
  allowance : Nat
  level : Nat
  overdraw : Nat
  deriving DecidableEq, Repr

/-- 12.1: an entry reply's 13 bytes. -/
def EntryReply.bytes (r : EntryReply) : List Byte :=
  r.result.code :: (beBytes 2 r.q ++ beBytes 2 r.committed ++ beBytes 2 r.pending ++ beBytes 2 r.allowance ++
    beBytes 2 r.level ++ beBytes 2 r.overdraw)

/-- R113: the disposition of a level-sense pair. -/
inductive Disposition where
  | ignored
  | counted
  | cleared
  | confirmed
  | leak
  deriving DecidableEq, Repr

def Disposition.code : Disposition → Nat
  | .ignored => 0
  | .counted => 1
  | .cleared => 2
  | .confirmed => 3
  | .leak => 4

/-- R113: a pair reply: bay, sense-confirm count, disposition. -/
def pairReply (b : Bay) (count : Nat) (d : Disposition) : List Byte := [bayByte b, byteOf count, byteOf d.code]

/-- A slot's number and state (11.6). -/
def slotReply (s : State) (k : SlotNo) : List Byte := [byteOf k.val, byteOf (s.slot k).state.code]

/-- R159: the SET-MASK reply: the mask level and the enables in force. -/
def maskReply (s : State) : List Byte := byteOf s.notice.mask :: beBytes 3 s.notice.enables.toNat

end Sys2Proof.Machine
end

