-- ==== Sys2Proof/Machine/Supply.lean ====
section
/-! DEFINITION. The Supply Monitor: the end of STARTING (R137, R3), the entry into SAVE (R138), the two lines (R139), the
deadline (R140) and the return to NORMAL (R141, R23). -/

namespace Sys2Proof.Machine

/-- R137: whether the part may leave STARTING. -/
def State.mayLeaveStarting (s : State) : Bool :=
  s.supply.state = .starting && s.journal.startupDone && s.digest.slotsRead && !s.supply.warn && !s.supply.crit

/-- R137, R3: the part leaves STARTING if it may, and each bay samples its presence line. -/
def State.leaveStarting (s : State) : State :=
  if s.mayLeaveStarting then (s.modSupply fun p => { p with state := .normal }).samplePresence else s

/-- R91: set or clear the SAVE demand of every account that `p` picks. -/
def State.setSaveDemand (s : State) (p : Account → Bool) (v : Bool) : State :=
  { s with accounts := s.accounts.map fun a => if p a then { a with drain := { a.drain with save := v } } else a }

/-- R138: the margin in use. -/
def marginInUse (t : Settings) : Nat := min t.margin t.budget

/-- R138: the entry into SAVE, with the deadline started at `ms`. -/
def State.enterSave (s : State) (ms : Nat) : State :=
  let s := s.modSupply fun p =>
    { p with state := .save, deadline := some ms, marginInUse := marginInUse s.settings }
  (s.saveBurst.setSaveDemand Account.liveMetered true).raisePart .saveEntered

/-- R138, R139: SUPPLY-WARN is asserted. -/
def State.warnAsserted (s : State) : State :=
  let s := s.modSupply fun p => { p with warn := true }
  if s.supply.state = .normal then s.enterSave s.settings.budget else s

/-- R139: the deadline is cut to the margin in use if more time than that is left. -/
def cutDeadline (margin : Nat) : Option Nat → Option Nat
  | some t => some (min t margin)
  | none => none

/-- R138, R139: SUPPLY-CRIT is asserted. -/
def State.critAsserted (s : State) : State :=
  let s := s.modSupply fun p => { p with crit := true }
  match s.supply.state with
  | .normal => if s.supply.warn then s else s.enterSave (marginInUse s.settings)
  | .save => s.modSupply fun p => { p with deadline := cutDeadline p.marginInUse p.deadline }
  | .starting | .expired => s

/-- R23: with resume OFF, an ADMITTED bay whose re-challenge is IDLE is given a re-challenge. -/
def BayRec.recover (resume : Bool) (r : BayRec) : BayRec :=
  if !resume && r.state = .admitted && r.rechallenge = .idle then { r with rechallengeTimer := none, rechallenge := .waiting }
  else r

/-- R5: held SETTLING bays move to IDENTIFYING. -/
def State.releaseSettled (s : State) : State :=
  forBays (fun b s => if (s.bay b).state = .settling && (s.bay b).settled then s.enterIdentifying b else s) s

/-- R141: the return to NORMAL. -/
def State.returnToNormal (s : State) : State :=
  let s := s.modSupply fun p => { p with state := .normal, deadline := none }
  let s := (s.setSaveDemand (fun _ => true) false).releaseSettled
  let s := { s with bays := s.bays.map (BayRec.recover s.settings.resume) }
  s.journalReturn

/-- R139, R141: a line is deasserted. -/
def State.lineDeasserted (s : State) (l : SupplyLine) : State :=
  let s := s.modSupply fun p => match l with | .warn => { p with warn := false } | .crit => { p with crit := false }
  if s.supply.state = .starting then s.leaveStarting
  else if s.supply.saving && !s.supply.warn && !s.supply.crit then s.returnToNormal
  else s

/-- R140: the deadline expires in SAVE. -/
def State.deadlineExpired (s : State) : State :=
  if s.supply.state = .save then
    (s.modSupply fun p => { p with state := .expired, deadline := none }).raisePart .saveExpired
  else s

end Sys2Proof.Machine
end

