-- ==== Sys2Proof/Machine/Slots.lean ====
section
/-! DEFINITION. The issuer slots: the slot table's read after a reset (R48), the slot requests taken one at a time (R49, R50,
R51, R179), the end of a store write, and what a cut-short write leaves in the store (R52). -/

namespace Sys2Proof.Machine

/-- The first queued request that waits for the Digest Engine to take it (R49, R179). -/
def State.nextSlotRequest (s : State) : Option QueueEntry :=
  s.dispatcher.queue.find? fun e => e.wait = .slotQueued

/-- R50, check 3: whether another slot that is not EMPTY has the issuer tag. A slot revoked while EMPTY, to which R48 gives no tag,
is compared by the tag IDENT reports for it, a free value (log entry 9). -/
def State.tagInUse (s : State) (k : SlotNo) (tag : BitVec 32) : Bool :=
  allSlots.any fun j => j != k && (s.slot j).state != .empty && slotTag j (s.slot j) = tag

/-- Change a slot of the table. -/
def State.modSlot (s : State) (k : SlotNo) (f : Slot → Slot) : State :=
  s.modDigest fun d => { d with slots := upd d.slots k f }

/-- Change a slot of the store, as the next cold reset will read it. -/
def State.modStore (s : State) (k : SlotNo) (f : Slot → Slot) : State :=
  s.modDigest fun d => { d with store := upd d.store k f }

/-- R49: a store write begins for a taken request. -/
def State.beginStoreWrite (s : State) (e : QueueEntry) (k : SlotNo) (w : SlotWriteKind) : State :=
  (s.modDigest fun d => { d with writing := some { request := e.tag, slot := k, kind := w } }).setWait e.tag .slotWriting

/-- R50: a SLOT-LOAD is taken. -/
def State.takeSlotLoad (s : State) (e : QueueEntry) : State :=
  match slotOfByte (byteAt e.payload 0) with
  | none => s.complete { tag := e.tag, result := .badValue, payload := [] }
  | some k =>
    let tag := BitVec.ofNat 32 (beNat (slice e.payload 1 4))
    if (s.slot k).state != .empty then s.complete { tag := e.tag, result := .state, payload := slotReply s k }
    else if s.tagInUse k tag then s.complete { tag := e.tag, result := .badValue, payload := slotReply s k }
    else s.beginStoreWrite e k (.load tag (BitVec.ofNat 256 (beNat (slice e.payload 5 32))))

/-- R21: a drawable bay of a revoked slot is given the revocation re-challenge, which is then WAITING even if one was RUNNING; a
QUARANTINED bay is rejected at once. An exchange that is open then stays open, to be judged as R58 says (log entry 20). -/
def State.revokeBay (s : State) (k : SlotNo) (b : Bay) : State :=
  if (s.bay b).slot = some k then
    if (s.bay b).drawable then
      s.modBay b fun r => { r with rechallenge := .waiting, rechallengeTimer := none }
    else if (s.bay b).state = .quarantined then s.rejectBay b .unknownIssuer
    else s
  else s

/-- R51: a slot becomes REVOKED in the table. -/
def Slot.revoke (x : Slot) : Slot := { x with state := .revoked }

/-- R51: a SLOT-REVOKE is taken. -/
def State.takeSlotRevoke (s : State) (e : QueueEntry) : State :=
  match slotOfByte (byteAt e.payload 0) with
  | none => s.complete { tag := e.tag, result := .badValue, payload := [] }
  | some k =>
    match (s.slot k).state with
    | .revoked => s.complete { tag := e.tag, result := .ok, payload := slotReply s k }
    | .empty => (s.modSlot k Slot.revoke).beginStoreWrite e k .revoke
    | .enabled => forBays (fun b s => s.revokeBay k b) ((s.modSlot k Slot.revoke).beginStoreWrite e k .revoke)

/-- R49: the engine takes slot requests while no store write runs. `fuel` bounds the requests taken. -/
def State.takeSlotRequests : Nat → State → State
  | 0, s => s
  | fuel + 1, s =>
    if s.digest.writing.isSome then s
    else match s.nextSlotRequest with
      | none => s
      | some e => (if e.kind = .slotLoad then s.takeSlotLoad e else s.takeSlotRevoke e).takeSlotRequests fuel

/-- R49: take what slot requests can be taken. -/
def State.runSlots (s : State) : State := s.takeSlotRequests (s.dispatcher.queue.length + 1)

/-- A slot loaded with a tag and a secret (R50). -/
def Slot.loaded (tag : BitVec 32) (secret : BitVec 256) : Slot :=
  { state := .enabled, tag := some tag, secret := some secret }

/-- A slot whose load failed: REVOKED with no usable secret (R50, R52). -/
def Slot.spoiled (tag : BitVec 32) : Slot := { state := .revoked, tag := some tag, secret := none }

/-- R52: the store's slot after a write whose part in question landed or did not: for a SLOT-LOAD the slot's state, for a
SLOT-REVOKE any part. A SLOT-REVOKE that landed nothing leaves the slot as it stood: ENABLED, in R52's words; of a slot that was
EMPTY, which R52 does not name and which holds no tag or secret to read as ENABLED, EMPTY. The model's choice (log entry 32). -/
def SlotWriteKind.landed (w : SlotWriteKind) (landed : Bool) (x : Slot) : Slot :=
  match w with
  | .load tag secret => if landed then Slot.loaded tag secret else Slot.spoiled tag
  | .revoke => if landed then x.revoke else x

/-- R50, R51: the table's slot after a write. -/
def SlotWriteKind.tableAfter (w : SlotWriteKind) (r : StoreResult) (x : Slot) : Slot :=
  match w, r with
  | .load tag secret, .success => Slot.loaded tag secret
  | .load tag _, .failure _ => Slot.spoiled tag
  | .revoke, _ => x

/-- What a write left in the store: a successful one all of it (R50 to R52). -/
def storeLanded : StoreResult → Bool
  | .success => true
  | .failure l => l

/-- R50, R51: the result a store write completes its request with. -/
def storeCode : StoreResult → ResultCode
  | .success => .ok
  | .failure _ => .failed

/-- R49: the store write ends: its request completes, and the next slot request is taken. -/
def State.storeWriteEnded (s : State) (r : StoreResult) : State :=
  match s.digest.writing with
  | none => s
  | some w =>
    let s := (s.modSlot w.slot (w.kind.tableAfter r)).modStore w.slot (w.kind.landed (storeLanded r))
    let s := s.modDigest fun d => { d with writing := none }
    (s.complete { tag := w.request, result := storeCode r, payload := slotReply s w.slot }).runSlots

/-- R52: the store as the next cold reset reads it when the reset cuts a write short. -/
def Digest.storeCutShort (d : Digest) (landed : Bool) : Vector Slot 4 :=
  match d.writing with
  | some w => upd d.store w.slot (w.kind.landed landed)
  | none => d.store

/-- R48: the read of the issuer slots ends; an IDENT that waited for it completes (R175), and the part may leave STARTING. -/
def State.slotTableRead (s : State) : State :=
  if s.digest.slotsRead then s
  else
    let s := s.modDigest fun d => { d with slots := d.store, slotsRead := true }
    let waiting := s.dispatcher.queue.filter fun e => e.wait = .slotRead
    (s.completeAll (waiting.map fun e => { tag := e.tag, result := .ok, payload := identReply s })).leaveStarting

end Sys2Proof.Machine
end

