-- ==== Sys2Proof/Machine/Requests.lean ====
section
/-! DEFINITION. What each request does at its owner once it is taken (chapters 1, 4 to 7, 9 to 11): one definition per kind,
over the queue entry that holds it. -/

namespace Sys2Proof.Machine

/-- Complete a request. -/
def State.finish (s : State) (e : QueueEntry) (r : ResultCode) (payload : List Byte) : State :=
  s.complete { tag := e.tag, result := r, payload := payload }

/-- R173: a request that names one bay; a bay number above 11 completes it with BAD_VALUE. -/
def State.forBay (s : State) (e : QueueEntry) (f : Bay → State) : State :=
  match bayOfByte (byteAt e.payload 0) with
  | some b => f b
  | none => s.finish e .badValue []

/-! ### Queries -/

/-- R175: IDENT waits for the slot read, and is answered at once after it. -/
def State.serveIdent (s : State) (e : QueueEntry) : State :=
  if s.digest.slotsRead then s.finish e .ok (identReply s) else s.setWait e.tag .slotRead

/-- R176. -/
def State.serveStatus (s : State) (e : QueueEntry) : State := s.finish e .ok (statusReply s)

/-- R177. -/
def State.serveBayQuery (s : State) (e : QueueEntry) : State :=
  s.forBay e fun b => s.finish e .ok (bayQueryReply s b)

/-- R136. -/
def State.serveHistoryQuery (s : State) (e : QueueEntry) : State :=
  match s.entry (BitVec.ofNat 64 (beNat e.payload)) with
  | some h => s.finish e .ok (historyReply h)
  | none => s.finish e .noEntry []

/-- R160. -/
def State.serveNotices (s : State) (e : QueueEntry) : State := s.finish e .ok (noticesReply s)

/-- R161: one item of an ACK-NOTICES: its bays leave the kind's bay set, or its part kind's flag clears. -/
def State.acknowledge (s : State) (k : NoticeKind) (bays : BitVec 12) : State :=
  s.modNotice fun u =>
    { u with
      sources := upd u.sources k.index fun x =>
        if k.isPart then { x with flag := false } else { x with bays := x.bays &&& ~~~bays } }

/-- R161. -/
def State.serveAckNotices (s : State) (e : QueueEntry) : State :=
  match readList 3 1 21 e.payload with
  | none => s.finish e .badLength []
  | some items =>
    match allSome (items.map readAckItem) with
    | none => s.finish e .badValue []
    | some acks =>
      let s := acks.foldl (fun s a => s.acknowledge a.1 a.2) s
      s.finish e .ok (ackReply s)

/-- R163. -/
def State.serveFaults (s : State) (e : QueueEntry) : State :=
  match boolOfByte (byteAt e.payload 0) with
  | none => s.finish e .badValue []
  | some clear =>
    let reply := faultsReply s
    (if clear then s.modNotice fun u => { u with faults := [] } else s).finish e .ok reply

/-! ### USAGE (4.3 to 4.9, 6.3) -/

/-- R81: the reply of an entry that is not accounted. -/
def notDrawableReply (a : Account) : EntryReply where
  result := .notDrawable
  q := 0
  committed := a.committed
  pending := a.pending
  allowance := 0
  level := a.level
  overdraw := a.overdraw

/-- R81: the reply of an accounted entry, computed as the entry has left the account. -/
def State.accountedReply (s : State) (b : Bay) (q : Nat) : EntryReply where
  result := .ok
  q := q
  committed := (s.account b).committed
  pending := (s.account b).pending
  allowance := s.allowance b
  level := s.level b
  overdraw := (s.account b).overdraw

/-- R67, R109, R110: one entry. Its bay is drawable and it is accounted, its account then being examined for a commit start (R76,
R93), or it is not accounted and may raise STRAY_USAGE. -/
def State.usageEntry (s : State) (b : Bay) (e : UsageEntry) : State × EntryReply :=
  if (s.bay b).drawable then
    let t := (s.accountEntry b e).examine b
    (t, t.accountedReply b (quantaOf ((s.account b).accumulate e)))
  else (s.raiseIf e.drawn .strayUsage b, notDrawableReply (s.account b))

/-- R66: the entries of a taken USAGE, in list order, with their replies. -/
def State.usageEntries (s : State) : List (Bay × UsageEntry) → State × List EntryReply
  | [] => (s, [])
  | (b, e) :: rest =>
    let (t, r) := s.usageEntry b e
    let (u, rs) := t.usageEntries rest
    (u, r :: rs)

/-- An entry with the bay it names; none for a bay above 11 (R66). -/
def withBay (e : UsageEntry) : Option (Bay × UsageEntry) := (bayOfByte e.bay).map fun b => (b, e)

/-- R66. -/
def State.serveUsage (s : State) (e : QueueEntry) : State :=
  match readList 19 1 8 e.payload with
  | none => s.finish e .badLength []
  | some items =>
    match allSome (items.map fun d => withBay (readUsageEntry d)) with
    | none => s.finish e .badValue []
    | some entries =>
      let (t, rs) := s.usageEntries entries
      t.finish e .ok (byteOf rs.length :: rs.flatMap EntryReply.bytes)

/-! ### LEVEL-SENSE (6.5, 6.6) -/

/-- R114: the condition under which a reading counts toward a refill. -/
def senseCounts (r : BayRec) (a : Account) : Bool :=
  r.state = .admitted && a.liveMetered && a.committed = a.capacity

/-- R117: the condition under which a DRY reading is a suspected leak. -/
def leakSuspected (r : BayRec) (a : Account) : Bool :=
  r.drawable && a.liveMetered && decide (Config.leakLevel < a.level)

/-- R115: a confirmation under tolerance ACCEPT. -/
def State.confirmAccept (s : State) (b : Bay) : State :=
  let s := s.modAccount b fun a =>
    { a with
      residue := 0
      metering := .unmetered
      drain := { flush := false, release := false, save := false }
      unmeteredCount := 0
      senseCount := 0 }
  (s.reportFor b fun s x => s.reportRefill b x).setVerdict b .refilled

/-- R116: a confirmation under tolerance REFUSE. The RECHALLENGE it fails and the LEVEL-SENSE itself are answered by one event, in
a free order (log entry 5). -/
def State.confirmRefuse (s : State) (b : Bay) : State :=
  let s := ((s.closeEmpty b).reportFor b fun s x => s.reportRefill b x).setVerdict b .refilled
  (s.leaveTo b .quarantined .none).settleWaits b { rechallenge := some .failed }

/-- R114 to R116: a PRESENT reading that counts. -/
def State.sensePresent (s : State) (b : Bay) : State × List Byte :=
  let n := (s.account b).senseCount + 1
  if n < s.settings.senseConfirm then
    (s.modAccount b fun a => { a with senseCount := n }, pairReply b n .counted)
  else match s.settings.tolerance with
    | .accept => (s.confirmAccept b, pairReply b 0 .confirmed)
    | .refuse => (s.confirmRefuse b, pairReply b n .confirmed)

/-- R114, R117: one pair. -/
def State.sensePair (s : State) (b : Bay) (r : Reading) : State × List Byte :=
  let n := (s.account b).senseCount
  if senseCounts (s.bay b) (s.account b) then
    match r with
    | .present => s.sensePresent b
    | .dry | .low =>
      if 0 < n then (s.modAccount b fun a => { a with senseCount := 0 }, pairReply b 0 .cleared)
      else (s, pairReply b 0 .ignored)
  else if r = .dry && leakSuspected (s.bay b) (s.account b) then (s.raise .leakSuspect b, pairReply b n .leak)
  else (s, pairReply b n .ignored)

/-- R113: the pairs of a taken LEVEL-SENSE, in list order, with their replies. -/
def State.sensePairs (s : State) : List (Bay × Reading) → State × List Byte
  | [] => (s, [])
  | (b, r) :: rest =>
    let (t, p) := s.sensePair b r
    let (u, ps) := t.sensePairs rest
    (u, p ++ ps)

/-- R113. The requests that its confirmations complete and the LEVEL-SENSE itself are answered by one event, in a free order (log
entry 5). -/
def State.serveLevelSense (s : State) (e : QueueEntry) : State :=
  match readList 2 1 12 e.payload with
  | none => s.finish e .badLength []
  | some items =>
    match allSome (items.map readPair) with
    | none => s.finish e .badValue []
    | some pairs =>
      let (t, ps) := s.sensePairs pairs
      t.finish e .ok (byteOf pairs.length :: ps)

/-! ### Bay actions -/

/-- R92: what the table of R92 makes of one bay: an answer at once, or a FLUSH demand and a wait (`none`). -/
def flushCase (r : BayRec) (a : Account) : Option ResultCode :=
  if !r.drawable then some .state
  else if a.metering = .unmetered then some .ok
  else if a.mode = .frozen then some .state
  else if a.pending = 0 then some .ok
  else none

/-- R92: the outcome a FLUSH for ALL records at once for a bay, if any. -/
def flushOutcomeAt (r : BayRec) (a : Account) : Option FlushOutcome :=
  if !r.drawable then some .nothing
  else if a.metering = .unmetered then some .nothing
  else if a.mode = .frozen then some .frozen
  else if a.pending = 0 then some .nothing
  else none

/-- R91: set the FLUSH demand. -/
def State.demandFlush (s : State) (b : Bay) : State :=
  s.modAccount b fun a => { a with drain := { a.drain with flush := true } }

/-- R92: a FLUSH for one bay. -/
def State.flushBay (s : State) (e : QueueEntry) (b : Bay) : State :=
  match flushCase (s.bay b) (s.account b) with
  | some .ok => s.finish e .ok (flushReply s b)
  | some r => s.finish e r []
  | none => (s.demandFlush b).setWait e.tag (.flush b)

/-- R92: a FLUSH for ALL. -/
def State.flushEvery (s : State) (e : QueueEntry) : State :=
  let outcomes : Vector (Option FlushOutcome) 12 := Vector.ofFn fun b => flushOutcomeAt (s.bay b) (s.account b)
  let s := { s with accounts := Vector.ofFn fun b =>
    if (flushOutcomeAt (s.bay b) (s.account b)).isNone then
      { s.account b with drain := { (s.account b).drain with flush := true } } else s.account b }
  if outcomes.toList.all Option.isSome then
    let os := outcomes.toList.filterMap id
    s.finish e (flushAllResult os) (os.map FlushOutcome.code)
  else s.setWait e.tag (.flushAll outcomes)

/-- R92: FLUSH; 0xFF means ALL (12). -/
def State.serveFlush (s : State) (e : QueueEntry) : State :=
  if byteAt e.payload 0 = 0xFF#8 then s.flushEvery e else s.forBay e fun b => s.flushBay e b

/-- R15: the RELEASE of an ADMITTED bay with a METERED account. A re-challenge in WAITING returns to IDLE, and a RECHALLENGE
joined to it completes with FAILED (R61); an exchange that a revocation left open under it (R21) ends with it (log entry 20). -/
def State.releaseMetered (s : State) (e : QueueEntry) (b : Bay) : State :=
  let waiting := (s.bay b).rechallenge = .waiting
  let s := s.modBay b fun r =>
    { r with
      state := .releasing
      rechallengeTimer := none
      rechallenge := if r.rechallenge = .waiting then .idle else r.rechallenge }
  let s := (s.modAccount b fun a => { a with drain := { a.drain with release := true } }).setWait e.tag (.release b)
  let s := if waiting then (s.endChallenge b).settleWaits b { rechallenge := some .failed } else s
  s.roundRelease b

/-- R15. The RECHALLENGE that a RELEASE of an UNMETERED bay fails and the RELEASE itself are answered by one event, in a free order
(log entry 5). -/
def State.releaseBay (s : State) (e : QueueEntry) (b : Bay) : State :=
  match (s.bay b).state with
  | .admitted =>
    match (s.account b).metering with
    | .metered => s.releaseMetered e b
    | .unmetered =>
      let s := (s.closeEmpty b).enterReleased b { release := some .ok, rechallenge := some .failed }
      s.finish e .ok (releaseReply s b)
  | .quarantined =>
    let s := s.enterReleased b {}
    s.finish e .ok (releaseReply s b)
  | .releasing => s.finish e .inProgress []
  | .vacant | .settling | .identifying | .challenging | .rejected | .released | .faulted => s.finish e .state []

/-- R15. -/
def State.serveRelease (s : State) (e : QueueEntry) : State := s.forBay e fun b => s.releaseBay e b

/-- R17: whether a bay is in a state that BAY-RESET takes. -/
def BayState.held : BayState → Bool
  | .faulted | .rejected | .quarantined | .released => true
  | .vacant | .settling | .identifying | .challenging | .admitted | .releasing => false

/-- R17. -/
def State.serveBayReset (s : State) (e : QueueEntry) : State :=
  s.forBay e fun b =>
    if s.supply.saving then s.finish e .saving []
    else if !(s.bay b).state.held then s.finish e .state []
    else (s.resetBay b).finish e .ok [bayByte b]

/-- R20. -/
def State.serveRechallenge (s : State) (e : QueueEntry) : State :=
  s.forBay e fun b =>
    if s.supply.saving then s.finish e .saving []
    else if (s.bay b).state != .admitted then s.finish e .state []
    else
      let s := if (s.bay b).rechallenge = .idle then
        s.modBay b fun r => { r with rechallenge := .waiting, rechallengeTimer := none } else s
      s.setWait e.tag (.rechallenge b)

/-! ### Settings -/

/-- The nine settings CONFIGURE reaches (10.7), numbered 1 to 9 in the order of their rows. -/
inductive Setting where
  | batch
  | defaultMode
  | tolerance
  | interval
  | lowThreshold
  | senseConfirm
  | budget
  | margin
  | resume
  deriving DecidableEq, Repr

/-- The setting an identifier names (12.1). -/
def settingOfByte (b : Byte) : Option Setting :=
  match b.toNat with
  | 1 => some .batch
  | 2 => some .defaultMode
  | 3 => some .tolerance
  | 4 => some .interval
  | 5 => some .lowThreshold
  | 6 => some .senseConfirm
  | 7 => some .budget
  | 8 => some .margin
  | 9 => some .resume
  | _ => none

/-- A mode of a setting's value. -/
def modeOfNat (v : Nat) : Mode := if v = 0 then .deferred else if v = 1 then .through else .frozen

/-- R172: the applied value of a setting, or none for a named value that is none of the setting's. -/
def Setting.applied (t : Setting) (v : Nat) : Option Nat :=
  match t with
  | .batch => some (clampNat 1 16 v)
  | .defaultMode => if v ≤ 2 then some v else none
  | .tolerance => if v ≤ 1 then some v else none
  | .interval => some (if v = 0 then 0 else clampNat 10 3600 v)
  | .lowThreshold => some (clampNat 10 500 v)
  | .senseConfirm => some (clampNat 1 8 v)
  | .budget => some (clampNat 10 500 v)
  | .margin => some (clampNat 5 100 v)
  | .resume => if v ≤ 1 then some v else none

/-- The value of a setting now. -/
def Setting.value (t : Setting) (x : Settings) : Nat :=
  match t with
  | .batch => x.batch
  | .defaultMode => x.defaultMode.rank
  | .tolerance => x.tolerance.code
  | .interval => x.interval
  | .lowThreshold => x.lowThreshold
  | .senseConfirm => x.senseConfirm
  | .budget => x.budget
  | .margin => x.margin
  | .resume => boolNat x.resume

/-- Store an applied value. -/
def Setting.store (t : Setting) (v : Nat) (x : Settings) : Settings :=
  match t with
  | .batch => { x with batch := v }
  | .defaultMode => { x with defaultMode := modeOfNat v }
  | .tolerance => { x with tolerance := if v = 0 then .accept else .refuse }
  | .interval => { x with interval := v }
  | .lowThreshold => { x with lowThreshold := v }
  | .senseConfirm => { x with senseConfirm := v }
  | .budget => { x with budget := v }
  | .margin => { x with margin := v }
  | .resume => { x with resume := v = 1 }

/-- R18: a change of the interval restarts every running timer, or stops every timer at 0; from 0 it starts the timer of every
ADMITTED bay whose re-challenge is IDLE. -/
def BayRec.retime (old new : Nat) (r : BayRec) : BayRec :=
  if old = 0 then
    if r.state = .admitted && r.rechallenge = .idle then { r with rechallengeTimer := timerStart new } else r
  else if r.rechallengeTimer.isSome then { r with rechallengeTimer := timerStart new }
  else r

/-- R172: deliver a changed setting to the blocks that act on it. -/
def State.deliverSetting (s : State) (t : Setting) (old new : Nat) : State :=
  match t with
  | .defaultMode => s.recomputeAllModes
  | .tolerance => if new = 0 then forBays (fun b s => s.admitQuarantined b) s else s
  | .interval => { s with bays := s.bays.map (BayRec.retime old new) }
  | .lowThreshold => forBays (fun b s => s.lowTest b) s
  | .batch | .senseConfirm | .budget | .margin | .resume => s

/-- R172. -/
def State.configureSetting (s : State) (e : QueueEntry) (t : Setting) (v : Nat) : State :=
  match t.applied v with
  | none => s.finish e .badValue []
  | some w =>
    let old := t.value s.settings
    let s := s.modSettings (t.store w)
    let s := if w = old then s else s.deliverSetting t old w
    s.finish e (if w = v then .ok else .clamped) (byteAt e.payload 0 :: beBytes 2 w)

/-- R172. -/
def State.serveConfigure (s : State) (e : QueueEntry) : State :=
  match settingOfByte (byteAt e.payload 0) with
  | none => s.finish e .badValue []
  | some t => s.configureSetting e t (beNat (slice e.payload 1 2))

/-- R87. -/
def State.serveSetBands (s : State) (e : QueueEntry) : State :=
  match readList 5 0 4 e.payload with
  | none => s.finish e .badLength []
  | some items =>
    match allSome (items.map readPrinterBand) with
    | none => s.finish e .badValue []
    | some bands => ((s.modSettings fun x => { x with bands := bands }).recomputeAllModes).finish e .ok [byteOf bands.length]

/-- R2. -/
def State.serveSetClass (s : State) (e : QueueEntry) : State :=
  s.forBay e fun b =>
    let c := BitVec.ofNat 16 (beNat (slice e.payload 1 2))
    if (s.bay b).state = .vacant then
      (s.modBay b fun r => { r with expectedClass := c }).finish e .ok (bayByte b :: beBytes 2 c.toNat)
    else s.finish e .bayOccupied []

/-- R88. The FLUSHes that a HOLD completes and the HOLD itself are answered by one event, in a free order (log entry 5). -/
def State.serveHold (s : State) (e : QueueEntry) : State :=
  match boolOfByte (byteAt e.payload 0) with
  | none => s.finish e .badValue []
  | some v =>
    let t := if v = s.settings.hold then s else (s.modSettings fun x => { x with hold := v }).recomputeAllModes
    t.finish e .ok [boolByte v]

/-- R159: the enables of the priority-7 kinds, CLONE and SAVE_ENTERED. -/
def forcedEnables : BitVec 21 := 0b11#21

/-- R159. -/
def State.serveSetMask (s : State) (e : QueueEntry) : State :=
  let level := (byteAt e.payload 0).toNat
  let carried := BitVec.ofNat 21 (beNat (slice e.payload 1 3))
  let applied := carried ||| forcedEnables
  let s := s.modNotice fun u => { u with mask := min level 7, enables := applied }
  s.finish e (if level ≤ 7 && applied = carried then .ok else .clamped) (maskReply s)

/-- R164: the highest supported rate at or below the requested rate, and 57600 below that. -/
def appliedRate (r : Nat) : Nat :=
  if 921600 ≤ r then 921600
  else if 460800 ≤ r then 460800
  else if 230400 ≤ r then 230400
  else if 115200 ≤ r then 115200
  else 57600

/-- R164: the rate changes when the reply's last byte has left the line. -/
def State.serveSetLink (s : State) (e : QueueEntry) : State :=
  let requested := beNat e.payload
  let rate := appliedRate requested
  s.complete {
    tag := e.tag, result := if rate = requested then .ok else .clamped, payload := beBytes 4 rate, newRate := some rate }

/-- R171. -/
def State.serveLockLevel (s : State) (e : QueueEntry) : State :=
  let level := (byteAt e.payload 0).toNat
  if level ≤ 2 then
    let s := s.modDispatcher fun d => { d with lockFloor := max d.lockFloor level }
    s.finish e .ok [byteOf s.dispatcher.lockFloor]
  else s.finish e .badValue []

/-! ### Factory slot requests -/

/-- R49, R50: a SLOT-LOAD joins the slot requests, and is taken if no store write runs. -/
def State.serveSlotLoad (s : State) (e : QueueEntry) : State := (s.setWait e.tag .slotQueued).runSlots

/-- R49, R51: a SLOT-REVOKE joins the slot requests, and is taken if no store write runs. -/
def State.serveSlotRevoke (s : State) (e : QueueEntry) : State := (s.setWait e.tag .slotQueued).runSlots

/-! ### Handing a request to its owner (R168) -/

/-- R168: the owner of a request's kind acts on it. -/
def State.serve (s : State) (e : QueueEntry) : State :=
  match e.kind with
  | .ident => s.serveIdent e
  | .status => s.serveStatus e
  | .bayQuery => s.serveBayQuery e
  | .historyQuery => s.serveHistoryQuery e
  | .notices => s.serveNotices e
  | .ackNotices => s.serveAckNotices e
  | .faults => s.serveFaults e
  | .usage => s.serveUsage e
  | .levelSense => s.serveLevelSense e
  | .flush => s.serveFlush e
  | .release => s.serveRelease e
  | .bayReset => s.serveBayReset e
  | .rechallenge => s.serveRechallenge e
  | .configure => s.serveConfigure e
  | .setBands => s.serveSetBands e
  | .setClass => s.serveSetClass e
  | .hold => s.serveHold e
  | .setMask => s.serveSetMask e
  | .setLink => s.serveSetLink e
  | .lockLevel => s.serveLockLevel e
  | .slotLoad => s.serveSlotLoad e
  | .slotRevoke => s.serveSlotRevoke e

end Sys2Proof.Machine
end

