-- ==== Sys2Proof/Machine/Link.lean ====
section
/-! DEFINITION. The Request Dispatcher's judgment of an arriving request (R167, R168), the receiver of the Link Interface
(R165, R166), and the end of a reply (R164, R168, R169). -/

namespace Sys2Proof.Machine

/-- R167, steps 3 to 6: the refusal of an arriving request of a kind, if one applies. -/
def State.kindRefusal (s : State) (k : RequestKind) (level : Nat) (payload : List Byte) : Option ResultCode :=
  if k.level < level then some .privilege
  else if s.supply.state = .starting && k != .ident && k != .status then some .starting
  else match k.fixedLength with
    | some n => if payload.length = n then none else some .badLength
    | none => none

/-- R168: a taken request joins the queue at its end. -/
def State.enqueue (s : State) (e : QueueEntry) : State :=
  s.modDispatcher fun d => { d with queue := d.queue ++ [e] }

/-- The queue entry of a request that has just been taken (R168, R170). -/
def State.newEntry (s : State) (k : RequestKind) (tag claimed : Byte) (payload : List Byte) : QueueEntry where
  kind := k
  tag := tag
  level := effectiveLevel s.dispatcher claimed
  payload := payload
  wait := .owner

/-- R167: the refusal given at once, if one applies; otherwise the kind of the request that is taken. -/
def State.judgeArrival (s : State) (kind tag claimed : Byte) (payload : List Byte) : Except ResultCode RequestKind :=
  if Config.queueSize ≤ s.dispatcher.queue.length then .error .busy
  else if s.dispatcher.queue.any fun e => e.tag = tag then .error .duplicateTag
  else match kindOfCode kind with
    | none => .error .unknownKind
    | some k => match s.kindRefusal k (effectiveLevel s.dispatcher claimed) payload with
      | some r => .error r
      | none => .ok k

/-- R166, R167: a request arrives: it is refused at once, or it joins the queue and is handed to its owner. The replies placed by
this one event stand in a free order (R169; log entry 5). -/
def State.deliver (s : State) (kind tag claimed : Byte) (payload : List Byte) : State :=
  match s.judgeArrival kind tag claimed payload with
  | .error r => s.refuse kind tag r
  | .ok k => (s.enqueue (s.newEntry k tag claimed payload)).together fun t => t.serve (s.newEntry k tag claimed payload)

/-- R166: a frame's CRC is checked; a frame whose CRC agrees is delivered. -/
def State.judgeFrame (s : State) (body : List Byte) (crc : BitVec 16) : State :=
  if crc16 body = crc then
    match body with
    | kind :: tag :: claimed :: payload => s.deliver kind tag claimed payload
    | _ => s
  else s

/-- Set the receiver's state. -/
def State.setReceiver (s : State) (r : Receiver) : State := s.modLink fun l => { l with receiver := r }

/-- R165: the receiver of a received byte in HUNT. -/
def huntByte (b : Byte) : Receiver := if b = 0xC3#8 then .length else .hunt

/-- R165: a LEN byte. -/
def lengthByte (b : Byte) : Receiver :=
  if 3 ≤ b.toNat ∧ b.toNat ≤ 203 then .body b.toNat [] else .hunt

/-- R165: a body byte. -/
def bodyByte (len : Nat) (held : List Byte) (b : Byte) : Receiver :=
  if len ≤ held.length + 1 then .check (held ++ [b]) [] else .body len (held ++ [b])

/-- R165, R166: a byte is received. -/
def State.receive (s : State) (b : Byte) : State :=
  match s.link.receiver with
  | .hunt => s.setReceiver (huntByte b)
  | .length => s.setReceiver (lengthByte b)
  | .body len held => s.setReceiver (bodyByte len held b)
  | .check body held =>
    match held with
    | [] => s.setReceiver (.check body [b])
    | high :: _ => (s.setReceiver .hunt).judgeFrame body (high ++ b)

/-- R165: the frame being received is abandoned. -/
def State.abandonFrame (s : State) : State := s.setReceiver .hunt

/-- R169: the next reply on the transmit list, if any, starts at the rate in force. -/
def State.startNextReply (s : State) : State :=
  s.modLink fun l =>
    match l.transmit with
    | [] => { l with sending := none }
    | r :: rest => { l with sending := some (r, l.rate), transmit := rest }

/-- R164: the rate that takes effect after a SET-LINK reply's last byte; a partial frame is abandoned if the rate changes. -/
def State.changeRate (s : State) (rate : Option Nat) : State :=
  match rate with
  | some v => if v = s.link.rate then s else s.modLink fun l => { l with rate := v, receiver := .hunt }
  | none => s

/-- R168: an entry leaves the queue when the last byte of its reply has been sent. -/
def State.leaveQueue (s : State) (r : Reply) : State :=
  if r.queued then s.modDispatcher fun d => { d with queue := d.queue.filter fun e => e.tag != r.tag } else s

/-- R168, R164, R169: the last byte of the reply being sent has left the line. -/
def State.replyFinished (s : State) : State :=
  match s.link.sending with
  | none => s
  | some (r, _) => ((s.leaveQueue r).changeRate r.newRate).startNextReply

end Sys2Proof.Machine
end

