-- ==== Sys2Proof/Machine/ExecLink.lean ====
section
/-! DEFINITION. The meanings of the controller link's events (R164 to R169). -/

namespace Sys2Proof.Machine

/-- RECEIVER_GAP_TIMEOUT (R165). -/
def execReceiverGapTimeout (s : State) : Host.Outcome State Fault Refusal := .next s.abandonFrame

/-- LINK_STOP_BIT_ERROR (R165). -/
def execLinkStopBitError (s : State) : Host.Outcome State Fault Refusal := .next s.abandonFrame

/-- FRAME_CRC_MISMATCH (R166): the frame's last CRC byte arrives, the receiver returns to HUNT and the frame is judged. -/
def execFrameCrcMismatch (body : List Byte) (crc : BitVec 16) (s : State) : Host.Outcome State Fault Refusal :=
  .next (s.abandonFrame.judgeFrame body crc)

/-- UNKNOWN_KIND_REQUEST (R167). -/
def execUnknownKindRequest (kind tag claimed : Byte) (payload : List Byte) (s : State) : Host.Outcome State Fault Refusal :=
  .next (s.deliver kind tag claimed payload)

/-- REPLY_SENT (R168). -/
def execReplySent (s : State) : Host.Outcome State Fault Refusal := .next s.replyFinished

/-- LINK_BYTE_RECEIVED (R165, R166). -/
def execLinkByteReceived (byte : Byte) (s : State) : Host.Outcome State Fault Refusal := .next (s.receive byte)

end Sys2Proof.Machine
end

