-- ==== Sys2Proof/Machine/ExecRequests.lean ====
section
/-! DEFINITION. The meanings of the requests: each is the arrival of a whole frame of its kind, which the Request Dispatcher
judges (R167) and, if it is taken, hands to the kind's owner, whose rule is named with each. -/

namespace Sys2Proof.Machine

/-- IDENT (R175): `serveIdent` once taken. -/
def execIdent (tag claimed : Byte) (payload : List Byte) (s : State) : Host.Outcome State Fault Refusal :=
  .next (s.deliver RequestKind.ident.code tag claimed payload)

/-- STATUS (R176): `serveStatus` once taken. -/
def execStatus (tag claimed : Byte) (payload : List Byte) (s : State) : Host.Outcome State Fault Refusal :=
  .next (s.deliver RequestKind.status.code tag claimed payload)

/-- BAY_QUERY (R177): `serveBayQuery` once taken. -/
def execBayQuery (tag claimed : Byte) (payload : List Byte) (s : State) : Host.Outcome State Fault Refusal :=
  .next (s.deliver RequestKind.bayQuery.code tag claimed payload)

/-- HISTORY_QUERY (R136): `serveHistoryQuery` once taken. -/
def execHistoryQuery (tag claimed : Byte) (payload : List Byte) (s : State) : Host.Outcome State Fault Refusal :=
  .next (s.deliver RequestKind.historyQuery.code tag claimed payload)

/-- NOTICES (R160): `serveNotices` once taken. -/
def execNotices (tag claimed : Byte) (payload : List Byte) (s : State) : Host.Outcome State Fault Refusal :=
  .next (s.deliver RequestKind.notices.code tag claimed payload)

/-- ACK_NOTICES (R161): `serveAckNotices` once taken. -/
def execAckNotices (tag claimed : Byte) (payload : List Byte) (s : State) : Host.Outcome State Fault Refusal :=
  .next (s.deliver RequestKind.ackNotices.code tag claimed payload)

/-- FAULTS (R163): `serveFaults` once taken. -/
def execFaults (tag claimed : Byte) (payload : List Byte) (s : State) : Host.Outcome State Fault Refusal :=
  .next (s.deliver RequestKind.faults.code tag claimed payload)

/-- USAGE (R66): `serveUsage` once taken. -/
def execUsage (tag claimed : Byte) (payload : List Byte) (s : State) : Host.Outcome State Fault Refusal :=
  .next (s.deliver RequestKind.usage.code tag claimed payload)

/-- LEVEL_SENSE (R113): `serveLevelSense` once taken. -/
def execLevelSense (tag claimed : Byte) (payload : List Byte) (s : State) : Host.Outcome State Fault Refusal :=
  .next (s.deliver RequestKind.levelSense.code tag claimed payload)

/-- FLUSH (R92): `serveFlush` once taken. -/
def execFlush (tag claimed : Byte) (payload : List Byte) (s : State) : Host.Outcome State Fault Refusal :=
  .next (s.deliver RequestKind.flush.code tag claimed payload)

/-- RELEASE (R15): `serveRelease` once taken. -/
def execRelease (tag claimed : Byte) (payload : List Byte) (s : State) : Host.Outcome State Fault Refusal :=
  .next (s.deliver RequestKind.release.code tag claimed payload)

/-- BAY_RESET (R17): `serveBayReset` once taken. -/
def execBayReset (tag claimed : Byte) (payload : List Byte) (s : State) : Host.Outcome State Fault Refusal :=
  .next (s.deliver RequestKind.bayReset.code tag claimed payload)

/-- RECHALLENGE (R20): `serveRechallenge` once taken. -/
def execRechallenge (tag claimed : Byte) (payload : List Byte) (s : State) : Host.Outcome State Fault Refusal :=
  .next (s.deliver RequestKind.rechallenge.code tag claimed payload)

/-- CONFIGURE (R172): `serveConfigure` once taken. -/
def execConfigure (tag claimed : Byte) (payload : List Byte) (s : State) : Host.Outcome State Fault Refusal :=
  .next (s.deliver RequestKind.configure.code tag claimed payload)

/-- SET_BANDS (R87): `serveSetBands` once taken. -/
def execSetBands (tag claimed : Byte) (payload : List Byte) (s : State) : Host.Outcome State Fault Refusal :=
  .next (s.deliver RequestKind.setBands.code tag claimed payload)

/-- SET_CLASS (R2): `serveSetClass` once taken. -/
def execSetClass (tag claimed : Byte) (payload : List Byte) (s : State) : Host.Outcome State Fault Refusal :=
  .next (s.deliver RequestKind.setClass.code tag claimed payload)

/-- HOLD (R88): `serveHold` once taken. -/
def execHold (tag claimed : Byte) (payload : List Byte) (s : State) : Host.Outcome State Fault Refusal :=
  .next (s.deliver RequestKind.hold.code tag claimed payload)

/-- SET_MASK (R159): `serveSetMask` once taken. -/
def execSetMask (tag claimed : Byte) (payload : List Byte) (s : State) : Host.Outcome State Fault Refusal :=
  .next (s.deliver RequestKind.setMask.code tag claimed payload)

/-- SET_LINK (R164): `serveSetLink` once taken. -/
def execSetLink (tag claimed : Byte) (payload : List Byte) (s : State) : Host.Outcome State Fault Refusal :=
  .next (s.deliver RequestKind.setLink.code tag claimed payload)

/-- LOCK_LEVEL (R171): `serveLockLevel` once taken. -/
def execLockLevel (tag claimed : Byte) (payload : List Byte) (s : State) : Host.Outcome State Fault Refusal :=
  .next (s.deliver RequestKind.lockLevel.code tag claimed payload)

/-- SLOT_LOAD (R50): `serveSlotLoad` once taken. -/
def execSlotLoad (tag claimed : Byte) (payload : List Byte) (s : State) : Host.Outcome State Fault Refusal :=
  .next (s.deliver RequestKind.slotLoad.code tag claimed payload)

/-- SLOT_REVOKE (R51): `serveSlotRevoke` once taken. -/
def execSlotRevoke (tag claimed : Byte) (payload : List Byte) (s : State) : Host.Outcome State Fault Refusal :=
  .next (s.deliver RequestKind.slotRevoke.code tag claimed payload)

end Sys2Proof.Machine
end

