-- ==== Sys2Proof/Machine/ExecReset.lean ====
section
/-! DEFINITION. The meanings of COLD_RESET, SLOT_TABLE_READ_DONE and STARTUP_FINISH (R155, R62, 8.6, R48, R154). -/

namespace Sys2Proof.Machine

/-- 8.6: every block at its value after a cold reset, before the journal is replayed. Flash, the key store (as a write that was
cut short leaves it), and the model's own fields stand. -/
def State.resetBlocks (s : State) (i : ResetInputs) : State where
  link := { receiver := .hunt, rate := 115200, sending := none, transmit := [] }
  dispatcher := {
    queue := [], settings := Settings.default, strapFloor := strapFloorOf i.factoryStrap i.serviceStrap, lockFloor := 0 }
  bays := Vector.replicate 12 (BayRec.cleared 0)
  ports := Vector.replicate 12 Port.cleared
  buses := State.reset.buses
  digest := Digest.afterReset (s.digest.storeCutShort i.storeLanded)
  accounts := Vector.replicate 12 Account.cold
  orders := Vector.replicate 12 []
  refill := { table := [], sequence := 0 }
  supply := { state := .starting, deadline := none, warn := i.supplyWarn, crit := i.supplyCrit, marginInUse := 0 }
  journal := s.journal.afterReset
  notice := NoticeUnit.afterReset
  presence := i.presence
  free := s.free
  pending := s.pending

/-- R155, R152 to R154, R121: a cold reset, with the classification, the replay and the beginning of the start-up erases. -/
def State.coldReset (s : State) (i : ResetInputs) : State := (s.resetBlocks i).replay.startErases

/-- COLD_RESET. -/
def execColdReset (i : ResetInputs) (s : State) : Host.Outcome State Fault Refusal := .next (s.coldReset i)

/-- SLOT_TABLE_READ_DONE. -/
def execSlotTableReadDone (s : State) : Host.Outcome State Fault Refusal := .next (s.together State.slotTableRead)

/-- STARTUP_FINISH: without effect until the start-up work has come to its end. -/
def execStartupFinish (s : State) : Host.Outcome State Fault Refusal :=
  .next (if s.startupOver then s.startupComplete.leaveStarting else s)

end Sys2Proof.Machine
end

