-- ==== Sys2Proof/Machine/ExecSupply.lean ====
section
/-! DEFINITION. The meanings of the key store's events (R49 to R52) and of the supply's (R138 to R141). -/

namespace Sys2Proof.Machine

/-- STORE_WRITE_DONE (R49). -/
def execStoreWriteDone (r : StoreResult) (s : State) : Host.Outcome State Fault Refusal := .next (s.storeWriteEnded r)

/-- STORE_WRITE_TIMEOUT (R49): the write has failed. -/
def execStoreWriteTimeout (landed : Bool) (s : State) : Host.Outcome State Fault Refusal :=
  .next (s.storeWriteEnded (.failure landed))

/-- SUPPLY_WARN_ASSERTED (R138). -/
def execSupplyWarnAsserted (s : State) : Host.Outcome State Fault Refusal := .next s.warnAsserted

/-- SUPPLY_CRIT_ASSERTED (R139). -/
def execSupplyCritAsserted (s : State) : Host.Outcome State Fault Refusal := .next s.critAsserted

/-- SUPPLY_LINE_DEASSERTED (R141). -/
def execSupplyLineDeasserted (l : SupplyLine) (s : State) : Host.Outcome State Fault Refusal := .next (s.lineDeasserted l)

/-- SAVE_DEADLINE_EXPIRY (R140). -/
def execSaveDeadlineExpiry (s : State) : Host.Outcome State Fault Refusal := .next s.deadlineExpired

end Sys2Proof.Machine
end

