-- ==== Sys2Proof/Machine/Dispatch.lean ====
section
/-! DEFINITION. One arm per command, in the order of spec/opcode_table.json. -/

namespace Sys2Proof.Machine

def exec (i : Instr) (s : State) : Host.Outcome State Fault Refusal :=
  match i with
  | .coldReset inputs => Sys2Proof.Machine.execColdReset inputs s
  | .slotTableReadDone => Sys2Proof.Machine.execSlotTableReadDone s
  | .startupFinish => Sys2Proof.Machine.execStartupFinish s
  | .presenceRise b => Sys2Proof.Machine.execPresenceRise b s
  | .presenceDrop b => Sys2Proof.Machine.execPresenceDrop b s
  | .settleTimerExpiry b => Sys2Proof.Machine.execSettleTimerExpiry b s
  | .rechallengeTimerExpiry b => Sys2Proof.Machine.execRechallengeTimerExpiry b s
  | .rechallengeStart b => Sys2Proof.Machine.execRechallengeStart b s
  | .postNextOperation b => Sys2Proof.Machine.execPostNextOperation b s
  | .busGrant n => Sys2Proof.Machine.execBusGrant n s
  | .restTimerExpiry n => Sys2Proof.Machine.execRestTimerExpiry n s
  | .tokenReplyTimeout n => Sys2Proof.Machine.execTokenReplyTimeout n s
  | .identReadReply n frame => Sys2Proof.Machine.execIdentReadReply n frame s
  | .nonceSendAcknowledgement n frame => Sys2Proof.Machine.execNonceSendAcknowledgement n frame s
  | .answerTimerExpiry b => Sys2Proof.Machine.execAnswerTimerExpiry b s
  | .answerFetchReply n frame => Sys2Proof.Machine.execAnswerFetchReply n frame s
  | .engineDone => Sys2Proof.Machine.execEngineDone s
  | .armReply n frame => Sys2Proof.Machine.execArmReply n frame s
  | .loadReply n frame => Sys2Proof.Machine.execLoadReply n frame s
  | .burnEnd n => Sys2Proof.Machine.execBurnEnd n s
  | .confirmReply n frame => Sys2Proof.Machine.execConfirmReply n frame s
  | .markReply n frame => Sys2Proof.Machine.execMarkReply n frame s
  | .checkReadReply n frame => Sys2Proof.Machine.execCheckReadReply n frame s
  | .storeWriteDone r => Sys2Proof.Machine.execStoreWriteDone r s
  | .storeWriteTimeout landed => Sys2Proof.Machine.execStoreWriteTimeout landed s
  | .supplyWarnAsserted => Sys2Proof.Machine.execSupplyWarnAsserted s
  | .supplyCritAsserted => Sys2Proof.Machine.execSupplyCritAsserted s
  | .supplyLineDeasserted l => Sys2Proof.Machine.execSupplyLineDeasserted l s
  | .saveDeadlineExpiry => Sys2Proof.Machine.execSaveDeadlineExpiry s
  | .writerTakeRecord => Sys2Proof.Machine.execWriterTakeRecord s
  | .recordWriteDone ok => Sys2Proof.Machine.execRecordWriteDone ok s
  | .recordWriteTimeout => Sys2Proof.Machine.execRecordWriteTimeout s
  | .headerWriteDone ok => Sys2Proof.Machine.execHeaderWriteDone ok s
  | .headerWriteTimeout => Sys2Proof.Machine.execHeaderWriteTimeout s
  | .eraseDone x r => Sys2Proof.Machine.execEraseDone x r s
  | .eraseTimeout x markerRetired => Sys2Proof.Machine.execEraseTimeout x markerRetired s
  | .receiverGapTimeout => Sys2Proof.Machine.execReceiverGapTimeout s
  | .linkStopBitError => Sys2Proof.Machine.execLinkStopBitError s
  | .frameCrcMismatch body crc => Sys2Proof.Machine.execFrameCrcMismatch body crc s
  | .unknownKindRequest kind tag claimed payload => Sys2Proof.Machine.execUnknownKindRequest kind tag claimed payload s
  | .replySent => Sys2Proof.Machine.execReplySent s
  | .ident tag claimed payload => Sys2Proof.Machine.execIdent tag claimed payload s
  | .status tag claimed payload => Sys2Proof.Machine.execStatus tag claimed payload s
  | .bayQuery tag claimed payload => Sys2Proof.Machine.execBayQuery tag claimed payload s
  | .historyQuery tag claimed payload => Sys2Proof.Machine.execHistoryQuery tag claimed payload s
  | .notices tag claimed payload => Sys2Proof.Machine.execNotices tag claimed payload s
  | .ackNotices tag claimed payload => Sys2Proof.Machine.execAckNotices tag claimed payload s
  | .faults tag claimed payload => Sys2Proof.Machine.execFaults tag claimed payload s
  | .usage tag claimed payload => Sys2Proof.Machine.execUsage tag claimed payload s
  | .levelSense tag claimed payload => Sys2Proof.Machine.execLevelSense tag claimed payload s
  | .flush tag claimed payload => Sys2Proof.Machine.execFlush tag claimed payload s
  | .release tag claimed payload => Sys2Proof.Machine.execRelease tag claimed payload s
  | .bayReset tag claimed payload => Sys2Proof.Machine.execBayReset tag claimed payload s
  | .rechallenge tag claimed payload => Sys2Proof.Machine.execRechallenge tag claimed payload s
  | .configure tag claimed payload => Sys2Proof.Machine.execConfigure tag claimed payload s
  | .setBands tag claimed payload => Sys2Proof.Machine.execSetBands tag claimed payload s
  | .setClass tag claimed payload => Sys2Proof.Machine.execSetClass tag claimed payload s
  | .hold tag claimed payload => Sys2Proof.Machine.execHold tag claimed payload s
  | .setMask tag claimed payload => Sys2Proof.Machine.execSetMask tag claimed payload s
  | .setLink tag claimed payload => Sys2Proof.Machine.execSetLink tag claimed payload s
  | .lockLevel tag claimed payload => Sys2Proof.Machine.execLockLevel tag claimed payload s
  | .slotLoad tag claimed payload => Sys2Proof.Machine.execSlotLoad tag claimed payload s
  | .slotRevoke tag claimed payload => Sys2Proof.Machine.execSlotRevoke tag claimed payload s
  | .linkByteReceived byte => Sys2Proof.Machine.execLinkByteReceived byte s

end Sys2Proof.Machine
end

