-- ==== Sys2Proof/Machine/Ticks.lean ====
section
/-! DEFINITION. The passing of one millisecond with no command waiting: every running timer's time left falls by 1, to 0 at
least. A timer's expiry is a command of its own (log entry 11). -/

namespace Sys2Proof.Machine

/-- A running timer's time left after 1 ms. -/
def tickTimer (t : Option Nat) : Option Nat := t.map (· - 1)

/-- One millisecond passes. -/
def State.tick (s : State) : State :=
  { s with
    bays := s.bays.map fun r =>
      { r with settleTimer := tickTimer r.settleTimer, rechallengeTimer := tickTimer r.rechallengeTimer }
    ports := s.ports.map fun q => { q with answerTimer := tickTimer q.answerTimer }
    buses := s.buses.map fun u => { u with restTimer := tickTimer u.restTimer }
    supply := { s.supply with deadline := tickTimer s.supply.deadline } }

end Sys2Proof.Machine
end

