-- ==== Sys2Proof/Safety.lean ====
section
/-! DEFINITION. What the manual calls the laws of the part, as predicates on its state, and what it says each block's state stays
within. A state that meets them is a safe one. -/

namespace Sys2Proof.Safety

open Sys2Proof.Machine

/-- Law 1 (R74): for every live metered account, in-flight does not exceed pending, and committed plus pending does not exceed
capacity. -/
def law1 (s : State) : Prop :=
  ∀ b : Bay, (s.account b).liveMetered = true →
    (s.account b).inFlight ≤ (s.account b).pending ∧
    (s.account b).committed + (s.account b).pending ≤ (s.account b).capacity

/-- Law 2 (R83): committed does not decrease while the account is live. -/
def law2 (s t : State) : Prop :=
  ∀ b : Bay, (s.account b).live = true → (t.account b).live = true → (s.account b).committed ≤ (t.account b).committed

/-- Law 3 (R73, R118): every account residue and every history debt residue is less than one quantum. -/
def law3 (s : State) : Prop :=
  (∀ b : Bay, (s.account b).residue < Config.quantum) ∧ ∀ e ∈ s.refill.table, e.debtResidue < Config.quantum

/-- Law 4 (R126): no two bays in ADMITTED or RELEASING hold the same serial. -/
def law4 (s : State) : Prop :=
  ∀ b c : Bay, b ≠ c → (s.bay b).drawable = true → (s.bay c).drawable = true →
    (s.serialRead b).isSome = true → s.serialRead b ≠ s.serialRead c

/-- Law 5 (R119): the table holds at most 192 entries and no two entries with the same serial. -/
def law5 (s : State) : Prop :=
  s.refill.table.length ≤ 192 ∧ (s.refill.table.map (·.serial)).Nodup

/-- Law 6 (R1): a bay's serial is present exactly while the entry of that serial names the bay. -/
def law6 (s : State) : Prop :=
  ∀ (b : Bay) (x : Serial), (s.bay b).serial = some x ↔ ∃ e ∈ s.refill.table, e.serial = x ∧ e.bay = some b

/-- Law 7 (R118): an entry whose serial belongs to a live account has zero debt and no doubt. -/
def law7 (s : State) : Prop :=
  ∀ e ∈ s.refill.table, s.liveAccountsOf e.serial ≠ [] → e.holdsDebt = false ∧ e.doubt = none

/-- Law 8 (R105): the allowance is zero unless the bay is ADMITTED, and UNLIMITED or at most the remaining ink. -/
def law8 (s : State) : Prop :=
  ∀ b : Bay, ((s.bay b).state ≠ .admitted → s.allowance b = 0) ∧
    ((s.bay b).state = .admitted → (s.account b).metering = .metered → s.allowance b ≤ (s.account b).remaining) ∧
    ((s.bay b).state = .admitted → (s.account b).metering = .unmetered → s.allowance b = 65535)

/-- Law 9 (R24): a bus's transaction is one of its own bays', and a bay has no request posted while its transaction runs. -/
def law9 (s : State) : Prop :=
  ∀ (n : Bus) (t : Transaction), (s.bus n).current = some t → busOf t.bay = n ∧ (s.port t.bay).posted = none

/-- Law 11 (R170): a request's effective level is never numerically lower than a floor. -/
def law11 (s : State) : Prop :=
  ∀ claimed : Byte, s.dispatcher.strapFloor ≤ effectiveLevel s.dispatcher claimed ∧
    s.dispatcher.lockFloor ≤ effectiveLevel s.dispatcher claimed

/-- Law 12 (R143): except during STARTING, SAVE, EXPIRED and DEGRADED, at least one sector is ERASED. -/
def law12 (s : State) : Prop :=
  s.supply.state = .normal → s.journal.mode = .normal → 1 ≤ s.journal.erasedCount

/-- The Notice Unit's bounds: at most 8 fault records (R162), a mask level of at most 7 (R158), and the enables of the
priority-7 kinds on (R157). -/
def noticeSound (s : State) : Prop :=
  s.notice.faults.length ≤ 8 ∧ s.notice.mask ≤ 7 ∧ s.enabled .clone = true ∧ s.enabled .saveEntered = true

/-- The request queue's bounds: at most 8 entries with unique tags (R168), and floors and levels of at most 2 (R170). -/
def queueSound (s : State) : Prop :=
  s.dispatcher.queue.length ≤ 8 ∧ (s.dispatcher.queue.map (·.tag)).Nodup ∧ s.dispatcher.strapFloor ≤ 2 ∧
    s.dispatcher.lockFloor ≤ 2

/-- The flash memory's canonical form. -/
def flashSound (s : State) : Prop := s.journal.flash.wf = true

/-! ### Terms that claims about requests use -/

/-- R167: an arriving request of kind `k` is taken: the queue has room, the tag is new, the kind is open to the effective level
and to the supply state, and a payload of fixed length has that length. -/
def admits (s : State) (k : RequestKind) (tag claimed : Byte) (payload : List Byte) : Prop :=
  s.dispatcher.queue.length < 8 ∧ (∀ e ∈ s.dispatcher.queue, e.tag ≠ tag) ∧
    effectiveLevel s.dispatcher claimed ≤ k.level ∧ (s.supply.state = .starting → k = .ident ∨ k = .status) ∧
    ∀ n, k.fixedLength = some n → payload.length = n

/-- The command that is the arrival of a request of a kind. -/
def requestOf : RequestKind → Byte → Byte → List Byte → Instr
  | .ident => .ident
  | .status => .status
  | .bayQuery => .bayQuery
  | .historyQuery => .historyQuery
  | .notices => .notices
  | .ackNotices => .ackNotices
  | .faults => .faults
  | .usage => .usage
  | .levelSense => .levelSense
  | .flush => .flush
  | .release => .release
  | .bayReset => .bayReset
  | .rechallenge => .rechallenge
  | .configure => .configure
  | .setBands => .setBands
  | .setClass => .setClass
  | .hold => .hold
  | .setMask => .setMask
  | .setLink => .setLink
  | .lockLevel => .lockLevel
  | .slotLoad => .slotLoad
  | .slotRevoke => .slotRevoke

/-- R168: the queue entry of a request just taken, waiting as `w` says. -/
def entryOf (s : State) (k : RequestKind) (tag claimed : Byte) (payload : List Byte) (w : Wait) : QueueEntry where
  kind := k
  tag := tag
  level := effectiveLevel s.dispatcher claimed
  payload := payload
  wait := w

/-- R168: the state with an entry joined to the queue at its end. -/
def holding (s : State) (e : QueueEntry) : State :=
  { s with dispatcher := { s.dispatcher with queue := s.dispatcher.queue ++ [e] } }

/-- R169: the state with a reply placed: sent at once at the rate in force, or waiting at the transmit list's end. -/
def placing (s : State) (r : Reply) : State :=
  { s with link := match s.link.sending with
    | none => { s.link with sending := some (r, s.link.rate) }
    | some _ => { s.link with transmit := s.link.transmit ++ [r] } }

/-- R168, R169: the state with a request just taken and completed: its entry stands at the queue's end until its reply has left,
and its reply is placed. -/
def answered (s : State) (e : QueueEntry) (result : ResultCode) (reply : List Byte) : State :=
  placing (holding s { e with wait := .replied })
    { kind := e.kind.code ||| 0x80#8, tag := e.tag, result := result, payload := reply, queued := true, newRate := none }

/-- R168: the reply of a queued request. -/
def replyOf (e : QueueEntry) (result : ResultCode) (payload : List Byte) : Reply :=
  { kind := e.kind.code ||| 0x80#8, tag := e.tag, result := result, payload := payload, queued := true, newRate := none }

/-- R168: the queue once the requests whose wait is `w` have completed. -/
def completing (w : Wait) (q : List QueueEntry) : List QueueEntry :=
  q.map fun e => if e.wait = w then { e with wait := .replied } else e

/-- R169, R178: two replies placed by one event, "in either order". -/
def eitherOrder (s t : State) (a b : Reply) : Prop :=
  t.link = (placing (placing s a) b).link ∨ t.link = (placing (placing s b) a).link

/-- R169, R178: between `s` and `t` one event places the replies `rs`, in some order. -/
def places (s t : State) (rs : List Reply) : Prop := ∃ os : List Reply, os.Perm rs ∧ t.link = (os.foldl placing s).link

/-- Whether a request's wait may be ended by an event at bay `b` (R103, R15, R20); a FLUSH for ALL waits on every bay (R92). -/
def waitsOn (b : Bay) : Wait → Bool
  | .flush c | .release c | .rechallenge c => c = b
  | .flushAll _ => true
  | .owner | .slotRead | .slotQueued | .slotWriting | .replied => false

/-- The requests that wait on bay `b`. -/
def waitingOn (s : State) (b : Bay) : List QueueEntry := s.dispatcher.queue.filter fun e => waitsOn b e.wait

/-- R168: no two requests of the queue have one tag. -/
def tagsUnique (s : State) : Prop := (s.dispatcher.queue.map (·.tag)).Nodup

/-- R92, R103: a FLUSH for ALL with FAILED recorded for bay `b`, unless the bay has its outcome. -/
def failedOutcomes (b : Bay) (os : Vector (Option FlushOutcome) 12) : Vector (Option FlushOutcome) 12 :=
  os.set b (some (os[b].getD .failed))

/-- R15, R16, R20, R92, R103: what a wait becomes when bay `b` fails the requests that wait on it: a wait on the bay is over, and a
FLUSH for ALL is over once every bay has its outcome. -/
def waitAfterFailure (b : Bay) : Wait → Wait
  | .flushAll os =>
    if (failedOutcomes b os).toList.all Option.isSome then .replied else .flushAll (failedOutcomes b os)
  | w => if waitsOn b w then .replied else w

/-- R92, R178, 11.4: the reply to a request that waited on bay `b` and that the bay fails, as `t` stands; `code` is the bay's state. A
FLUSH for ALL lists its outcomes, with FAILED if one of them is FAILED or FROZEN. -/
def failureReply (t : State) (b : Bay) (code : Byte) (e : QueueEntry) : Reply :=
  let bay : Byte := BitVec.ofNat 8 b.val
  match e.wait with
  | .flush _ => replyOf e .failed (bay :: beBytes 2 (t.account b).pending)
  | .flushAll os =>
    let outcomes := (failedOutcomes b os).toList.filterMap id
    replyOf e (if FlushOutcome.failed ∈ outcomes ∨ FlushOutcome.frozen ∈ outcomes then .failed else .ok)
      (outcomes.map FlushOutcome.code)
  | .rechallenge _ =>
    replyOf e .failed [bay, code, BitVec.ofNat 8 (t.bay b).mismatches, BitVec.ofNat 8 (t.bay b).commFailures]
  | .release _ | .owner | .slotRead | .slotQueued | .slotWriting | .replied => replyOf e .failed [bay, code]

/-- R15, R16, R20, R103, R178: between `s` and `t` bay `b`, then in the state numbered `code`, completes the requests that wait on it
with FAILED, and changes no other request. Several replies stand in some order (R169). (Read with unique tags: R168.) -/
def failsWaits (s t : State) (b : Bay) (code : Byte) : Prop :=
  tagsUnique s →
    t.dispatcher = { s.dispatcher with
      queue := s.dispatcher.queue.map fun e => { e with wait := waitAfterFailure b e.wait } } ∧
    places s t ((s.dispatcher.queue.filter fun e => e.wait ≠ .replied ∧ waitAfterFailure b e.wait = .replied).map
      (failureReply t b code))

/-- 12.1: the bytes of a USAGE entry. -/
def usageEntryBytes (b : Bay) (small medium large spit : BitVec 32) (purges degrees : Byte) : List Byte :=
  BitVec.ofNat 8 b.val :: (beBytes 4 small.toNat ++ beBytes 4 medium.toNat ++ beBytes 4 large.toNat ++ beBytes 4 spit.toNat ++
    [purges, degrees])

/-- R68 to R71: what a USAGE entry adds to the accumulator. -/
def usageVolume (c : CalibrationCopy) (small medium large spit : BitVec 32) (purges degrees : Byte) : Nat :=
  (small.toNat * c.vS + medium.toNat * c.vM + large.toNat * c.vL + spit.toNat * c.vM) * temperatureFactor c.k degrees.toInt +
    purges.toNat * c.vp * 1000000000

/-- R169: the state after an immediate refusal: its reply is placed unless 8 refusals already wait. -/
def refusing (s : State) (kind tag : Byte) (r : ResultCode) : State :=
  if 8 ≤ (s.link.transmit.filter fun x => !x.queued).length then s
  else placing s
    { kind := kind ||| 0x80#8, tag := tag, result := r, payload := [], queued := false, newRate := none }

/-- R26, R180: a token's reply frame: status, data and check. -/
def tokenFrame (status : Byte) (data : List Byte) : List Byte :=
  status :: (data ++ [crc8 (status :: data)])

/-- R45: the fault record of transaction `t` of bus `n` failing with `e`. -/
def recordFor (s : State) (n : Bus) (t : Transaction) (e : ErrorKind) : FaultRecord where
  bay := some t.bay
  place := .bus n
  transaction := t.request.op.kind
  phase := t.phase
  error := e
  attempt := t.request.attempt
  detail := t.request.op.detail (s.port t.bay).fetchCount

/-- The state with one bay's record replaced. -/
def withBayRec (s : State) (b : Bay) (r : BayRec) : State := { s with bays := s.bays.set b r }

/-- The state with one bay's account replaced. -/
def withAccount (s : State) (b : Bay) (a : Account) : State := { s with accounts := s.accounts.set b a }

/-- The state with one bay's port replaced. -/
def withPort (s : State) (b : Bay) (q : Port) : State := { s with ports := s.ports.set b q }

/-- The state with one bus replaced. -/
def withBusState (s : State) (n : Bus) (u : BusState) : State := { s with buses := s.buses.set n u }

/-- The state with one bay's challenge context replaced. -/
def withContext (s : State) (b : Bay) (c : Context) : State :=
  { s with digest := { s.digest with contexts := s.digest.contexts.set b c } }

/-- The state with one journal sector's record replaced. -/
def withSectorRec (s : State) (x : Sector) (r : SectorRec) : State :=
  { s with journal := { s.journal with sectors := s.journal.sectors.set x r } }

/-- The state with one notice source replaced. -/
def withSource (s : State) (k : NoticeKind) (x : Source) : State :=
  { s with notice := { s.notice with sources := s.notice.sources.set k.index x } }

/-- R156: a bay set with one more bay. -/
def joined (x : Source) (b : Bay) : Source := { x with bays := x.bays ||| (1#12 <<< b.val) }

/-- A bus whose transaction has ended: nothing in progress, the rest timer as given. -/
def idleBus (u : BusState) (rest : Option Nat) : BusState := { u with current := none, restTimer := rest }

/-- R26, R38 to R44: the command that brings transaction `t` of bus `n` the reply it awaits, with that frame. BURN awaits none. -/
def awaitedReply (n : Bus) (t : Transaction) (frame : List Byte) : Option Instr :=
  match t.request.op.kind, t.phase with
  | .identRead, .reply => some (.identReadReply n frame)
  | .nonceSend, .acknowledgement => some (.nonceSendAcknowledgement n frame)
  | .answerFetch, .fetch => some (.answerFetchReply n frame)
  | .advance, .arm => some (.armReply n frame)
  | .advance, .load => some (.loadReply n frame)
  | .advance, .confirm => some (.confirmReply n frame)
  | .mark, .reply => some (.markReply n frame)
  | .checkRead, .reply => some (.checkReadReply n frame)
  | _, _ => none

/-- R26, R180, R32 to R34: the data of an OK reply have a wrong length for the command, or fail the page's content check. -/
def contentFails (s : State) (t : Transaction) (data : List Byte) : Prop :=
  match t.request.op with
  | .identRead p =>
    readPage p (match (s.bay t.bay).identityPage with | some i => i.capacity | none => 0) data = none
  | .nonceSend _ _ | .mark _ => data ≠ []
  | .answerFetch _ => data.length ≠ 16
  | .advance _ _ => if t.phase = .confirm then data.length ≠ 2 else data ≠ []
  | .checkRead _ => data.length ≠ 2

/-- R26, R40, R41, R180: a reply frame makes the awaiting phase of `t` fail with an error kind: its check is wrong, its status is none
of the four, it has data where none fit or data that fail; it is REFUSED; it is BUSY, in a fetch the fourth time; or a CONFIRM reads
back another counter than the target. -/
def replyFails (s : State) (t : Transaction) (frame : List Byte) (e : ErrorKind) : Prop :=
  (e = .frameError ∧ ∀ status data, frame ≠ tokenFrame status data) ∨
  (∃ status data, e = .frameError ∧ frame = tokenFrame status data ∧
    (3 < status.toNat ∨ (status ≠ 0x00#8 ∧ data ≠ []) ∨ (status = 0x00#8 ∧ contentFails s t data) ∨
      (status = 0x02#8 ∧ t.request.op.kind ≠ .mark))) ∨
  (e = .refused ∧ frame = tokenFrame 0x01#8 []) ∨
  (e = .noResponse ∧ frame = tokenFrame 0x03#8 [] ∧ (t.request.op.kind = .answerFetch → 4 ≤ (s.port t.bay).fetchCount)) ∨
  (∃ index target data, e = .verifyMismatch ∧ frame = tokenFrame 0x00#8 data ∧ data.length = 2 ∧
    t.request.op = .advance index target ∧ t.phase = .confirm ∧ leNat data ≠ target)

/-- R26: command `c` makes transaction `t` of bus `n` fail with an error kind: no reply begins within 2 ms, or the reply fails. -/
def transactionFails (s : State) (c : Instr) (n : Bus) (t : Transaction) (e : ErrorKind) : Prop :=
  (c = .tokenReplyTimeout n ∧ t.phase ≠ .burn ∧ e = .noResponse) ∨
  ∃ frame, awaitedReply n t frame = some c ∧ replyFails s t frame e

/-- R31, R40, R45: the state with a failed transaction ended and its fault record written, the bay not yet told. -/
def afterFailure (s : State) (n : Bus) (t : Transaction) (e : ErrorKind) : State :=
  { s with
    notice := { s.notice with faults := joinFaults s.notice.faults (recordFor s n t e) }
    buses := s.buses.set n (idleBus (s.bus n)
      (if t.request.op.kind = .advance ∨ t.request.op.kind = .mark then some 1 else (s.bus n).restTimer))
    ports := if t.request.op.kind = .answerFetch then s.ports.set t.bay { s.port t.bay with fetchCount := 0 } else s.ports }

/-- R84: no other live account is of the serial that bay `b` has read, so the liability its account leaves changes no account. -/
def onlyAccount (s : State) (b : Bay) : Prop :=
  ∀ x, s.serialRead b = some x → ∀ c, c ≠ b → (s.account c).live = true → s.serialRead c ≠ some x

/-- R1, R6, R59, R60, R97, R100: between `s` and `t` bay `b` moves to FAULTED. BAY_FAULTED is raised, and no other notice. A
re-challenge ends, and the context closes (R61). No other bay's record changes. R15, R20, R103: the requests that wait on the bay
complete with FAILED. -/
def faultsBay (s t : State) (b : Bay) : Prop :=
  (t.bay b).state = .faulted ∧ (t.bay b).rejectReason = .none ∧ (t.bay b).rechallenge = .idle ∧
  (t.bay b).rechallengeTimer = none ∧ t.context b = Context.closed ∧
  t.notice.sources = s.notice.sources.set NoticeKind.bayFaulted.index (joined (s.source .bayFaulted) b) ∧
  (∀ d, d ≠ b → t.bay d = s.bay d) ∧ failsWaits s t b 0x09#8

/-- R7, R10, R58 to R60: between `s` and `t` bay `b` moves to REJECTED for a reason, with its notice raised. A live account closes, a
re-challenge ends, and the context closes. R15, R20, R103: the requests that wait on the bay complete with FAILED. (The requests are
read where no other account takes the liability up: R84.) -/
def rejectsBay (s t : State) (b : Bay) (why : RejectReason) (notice : NoticeKind) : Prop :=
  (t.bay b).state = .rejected ∧ (t.bay b).rejectReason = why ∧ (t.bay b).rechallenge = .idle ∧
    (t.bay b).rechallengeTimer = none ∧ t.context b = Context.closed ∧
    ((s.account b).live = true → t.account b = Account.cold) ∧ t.source notice = joined (s.source notice) b ∧
    (∀ d, d ≠ b → t.bay d = s.bay d) ∧ (onlyAccount s b → failsWaits s t b 0x06#8)

/-- R7: the class and issuer checks of an identity page pass, the issuer slot being `k`. -/
def checksPass (s : State) (b : Bay) (i : IdentityPage) (k : SlotNo) : Prop :=
  ((s.bay b).expectedClass = 0 ∨ (s.bay b).expectedClass = i.classCode) ∧
    (s.slot k).state = .enabled ∧ (s.slot k).tag = some i.issuerTag ∧
    ∀ j, j < k → ¬((s.slot j).state = .enabled ∧ (s.slot j).tag = some i.issuerTag)

/-- R57: command `c` brings the second of an exchange's two answers, `token` being the token's and `expected` the engine's: the
engine ends the bay's job, no other being queued, or the token's answer arrives. The exchange had no failure (R58). -/
def exchangeEnds (s : State) (c : Instr) (b : Bay) (token expected : BitVec 128) : Prop :=
  (s.context b).endCause = .none ∧
  ((c = .engineDone ∧ s.digest.computing = some { bay := b, answer := expected, discarded := false } ∧ s.digest.queue = [] ∧
      (s.context b).tokenAnswer = some token) ∨
    ∃ (t : Transaction) (data : List Byte), c = .answerFetchReply (busOf b) (tokenFrame 0x00#8 data) ∧ data.length = 16 ∧
      token = BitVec.ofNat 128 (beNat data) ∧ (s.bus (busOf b)).current = some t ∧ t.bay = b ∧
      t.request.op.kind = .answerFetch ∧ t.phase = .fetch ∧ t.discarded = false ∧ (s.context b).expected = .present expected)

/-- R22, R28: no grant is due on the bus of bay `b`, which has nothing posted itself: the bus is not free, the supply is in EXPIRED, or
no other bay of the bus has a request posted. -/
def noGrantDue (s : State) (b : Bay) : Prop :=
  (s.bus (busOf b)).free = false ∨ s.supply.state = .expired ∨ ∀ c, c ≠ b → busOf c = busOf b → (s.port c).posted = none

/-- R137, R3: the Supply Monitor's check of the end of STARTING in state `u` leaves `t`. With the start-up work and the slots' read
complete and no supply line asserted the part enters NORMAL, and every VACANT bay whose presence line shows a cartridge moves to
SETTLING; else nothing changes. -/
def leavesStarting (u t : State) : Prop :=
  let may : Prop := u.supply.state = .starting ∧ u.journal.startupDone = true ∧ u.digest.slotsRead = true ∧
    u.supply.warn = false ∧ u.supply.crit = false
  (may → t = { u with supply := { u.supply with state := .normal }, bays := t.bays } ∧
    ∀ b : Bay, t.bay b =
      if u.presence[b] = true ∧ (u.bay b).state = .vacant then
        { u.bay b with state := .settling, settleTimer := some 50, settled := false }
      else u.bay b) ∧
  (¬may → t = u)

/-- R50, R51: the issuer slot table once store write `w` has ended, with success or not. -/
def tableAfter (s : State) (w : SlotWrite) (success : Bool) : Vector Slot 4 :=
  match w.kind with
  | .load tag secret => s.digest.slots.set w.slot (if success then
      { state := .enabled, tag := some tag, secret := some secret } else { state := .revoked, tag := some tag, secret := none })
  | .revoke => s.digest.slots

/-- 12.1: the payload of a SLOT-LOAD. -/
def slotLoadBytes (k : SlotNo) (issuer : BitVec 32) (secret : BitVec 256) : List Byte :=
  [BitVec.ofNat 8 k.val] ++ beBytes 4 issuer.toNat ++ beBytes 32 secret.toNat

/-- R66, R113, R87, R161, 12.1: the requests that carry a list: the size of an element in bytes, and the least and the largest count. -/
def listShape : RequestKind → Option (Nat × Nat × Nat)
  | .usage => some (19, 1, 8)
  | .levelSense => some (2, 1, 12)
  | .setBands => some (5, 0, 4)
  | .ackNotices => some (3, 1, 21)
  | _ => none

/-- R66, R113, R87, R161: an element for which the whole list is refused: a bay above 11, a reading or a mode that is none of its three,
a low bound above its high bound, a code that names no notice kind. That a part kind's item is refused for a bay above 11 in its set is
the model's choice (log entry 47). -/
def badItem (k : RequestKind) (item : List Byte) : Prop :=
  match k with
  | .usage => ∃ b rest, item = b :: rest ∧ 11 < b.toNat
  | .levelSense => ∃ b r : Byte, item = [b, r] ∧ (11 < b.toNat ∨ 2 < r.toNat)
  | .setBands => ∃ (low high : BitVec 16) (m : Byte), item = beBytes 2 low.toNat ++ beBytes 2 high.toNat ++ [m] ∧
      (2 < m.toNat ∨ high.toNat < low.toNat)
  | .ackNotices => ∃ (code : Byte) (set : BitVec 16), item = code :: beBytes 2 set.toNat ∧
      (code = 0 ∨ 21 < code.toNat ∨ 4096 ≤ set.toNat)
  | _ => False

/-- R151: the state in which the journal has become DEGRADED: the append set is empty, nothing is copied, JOURNAL_DEGRADED is raised. -/
def degraded (s : State) : State :=
  withSource
    { s with journal := { s.journal with
      mode := .degraded
      appendSet := []
      compaction := match s.journal.compaction with | .copying _ _ => .idle | c => c } }
    .journalDegraded { s.source .journalDegraded with flag := true }

/-- R150: the state in which compaction has begun to erase a sector: its marker is written to the retired value. The marker as it
stood is the model's own note (log entry 28). -/
def eraseBegun (s : State) (x : Sector) : State :=
  withSectorRec
    { s with journal := { s.journal with
      flash := s.journal.flash.writeBytes (4096 * x.val) [0x00#8, 0x00#8, 0x00#8, 0x00#8]
      compaction := .erasing x } }
    x { s.sector x with erasing := some (BitVec.ofNat 32 (beNat (s.journal.flash.readBytes (4096 * x.val) 4))) }

/-- R149: compaction, checked outside STARTING in state `u`, leaves `t`. It starts from idle in NORMAL, with the journal not DEGRADED
and at most two sectors ERASED. It takes the oldest FULL sector; where that one's copies fit neither the room nor a sector that may
be opened, the oldest FULL sector that needs no copy, if there is one. A sector that needs no copy is erased at once. -/
def compacts (u t : State) : Prop :=
  let full : Sector → Prop := fun x => (u.sector x).state = .full ∧ (u.sector x).erasing = none
  let oldest : (Sector → Prop) → Sector → Prop := fun p x => full x ∧ p x ∧
    ∀ y, y ≠ x → full y → p y → (u.sector x).sequence.getD 0 < (u.sector y).sequence.getD 0
  let fits : Sector → Prop := fun x => ((u.copiesNeeded x).map fun y => (u.recordOf y).size).sum ≤ u.journal.room
  let begun : Sector → State := fun x =>
    if u.copiesNeeded x = [] then eraseBegun u x
    else { u with journal := { u.journal with compaction := .copying x (u.copiesNeeded x) } }
  (u.journal.compaction ≠ .idle ∨ u.journal.mode = .degraded ∨ u.supply.state = .save ∨ u.supply.state = .expired ∨
      3 ≤ u.journal.erasedCount ∨ (∀ x, ¬full x) → t = u) ∧
  (u.journal.compaction = .idle → u.journal.mode = .normal → u.supply.state = .normal → u.journal.erasedCount ≤ 2 →
    ∀ x, oldest (fun _ => True) x →
      (fits x ∨ u.journal.erasedCount = 2 → t = begun x) ∧
      (¬fits x → u.journal.erasedCount < 2 →
        (∀ y, oldest (fun z => u.copiesNeeded z = []) y → t = begun y) ∧
        ((∀ y, full y → u.copiesNeeded y ≠ []) → t = begun x)))

/-- R146, R147: the idle writer makes `t` of `s` in writing a record. It writes it into the ACTIVE sector if it fits; if not, that
sector becomes FULL. With no ACTIVE sector, or none left, it opens the lowest-numbered ERASED one with the next sequence number, if at
least two are ERASED in NORMAL, and one in any other supply state. `taken` is what else the taking does; `kept` what a record that
finds no place leaves. -/
def writes (s : State) (source : RecordSource) (r : JournalRecord) (taken kept : State → State) (t : State) : Prop :=
  let least := if s.supply.state = .normal then 2 else 1
  let filled : Sector → State := fun y => { s with journal := { s.journal with
    sectors := s.journal.sectors.set y { s.sector y with state := .full }, room := 0 } }
  let opening : State → Sector → State := fun u y => { u with journal := { u.journal with
    writer := .header y source r, room := 4080
    sectors := u.journal.sectors.set y { s.sector y with state := .active, sequence := some s.journal.nextSequence } } }
  let opens : State → Prop := fun u =>
    (∀ z, least ≤ s.journal.erasedCount → s.journal.lowestErased = some z → t = taken (opening u z)) ∧
    (s.journal.erasedCount < least → t = kept u)
  (∀ y, s.journal.active = some y →
    (r.size ≤ s.journal.room →
      t = taken { s with journal := { s.journal with writer := .record y source r, copyStale := false } }) ∧
    (s.journal.room < r.size → opens (filled y))) ∧
  (s.journal.active = none → opens s)

/-- R144: the fields of a record fit their sizes. -/
def recordFits : JournalRecord → Prop
  | .history r => r.highWater < 65536 ∧ r.lastSeen < 2 ^ 32 ∧
      (∀ d, r.debt = some d → d.1 < 65536 ∧ d.2 < 100000000000000) ∧
      ∀ d, r.doubt = some d → d.base < 65536 ∧ d.amount < 65536
  | .evict _ => True

/-- R153: what the last of some records about a serial says of its entry, whose place in the table is `i`. -/
def lastRecord (x : Serial) (i : Nat) (rs : List JournalRecord) : Option HistoryEntry :=
  match (rs.filter fun r => r.serial = x).getLast? with
  | some (.history r) => some (r.toEntry i)
  | _ => none

end Sys2Proof.Safety
end

