-- ==== Sys2Proof/Certificates/Slice0/Obligations.lean ====
section
/-! DEFINITION. The statements for the provers. Each `Obligations.<Name>` is one proposition about the model; OBLIGATIONS.json
lists them with the rules they rest on. -/

section

open Sys2Proof Sys2Proof.Machine Sys2Proof.Safety

/-! ### The step -/

/-- The step takes the command at the front of the queue and runs it on the state with the queue's rest. The queue is the
model's own (log entry 2). With no command waiting one millisecond passes: every running timer's time left falls by 1, to 0 at
least, and nothing else changes. The model's choice (log entry 11). -/
def Obligations.StepRunsTheFrontCommandOrTicks : Prop :=
  (∀ (c : Instr) (rest : List Instr) (s : State), step { s with pending := c :: rest } = exec c { s with pending := rest }) ∧
  (∀ s : State, s.pending = [] →
    step s = .next
      { s with
        bays := s.bays.map fun r =>
          { r with settleTimer := r.settleTimer.map (· - 1), rechallengeTimer := r.rechallengeTimer.map (· - 1) }
        ports := s.ports.map fun q => { q with answerTimer := q.answerTimer.map (· - 1) }
        buses := s.buses.map fun u => { u with restTimer := u.restTimer.map (· - 1) }
        supply := { s.supply with deadline := s.supply.deadline.map (· - 1) } })

/-- Every command ends in a next state, in every state and whatever its operands, and none touches the queue of commands. That
an event with nothing to act on changes nothing is the model's reading (log entry 13). -/
def Obligations.EveryCommandCompletesAndLeavesTheQueue : Prop :=
  ∀ (c : Instr) (s : State), ∃ t, exec c s = .next t ∧ t.pending = s.pending

/-! ### Invariants every step keeps -/

/-- R157, R158, R162: the fault queue holds at most 8 records, the mask level is at most 7, and the enables of CLONE and
SAVE_ENTERED are on. -/
def Obligations.NoticeUnitStaysSound : Prop :=
  ∀ s t : State, noticeSound s → step s = .next t → noticeSound t

/-- The flash memory keeps its canonical form. -/
def Obligations.FlashStaysCanonical : Prop :=
  ∀ s t : State, flashSound s → step s = .next t → flashSound t

/-- R168, R170: the request queue holds at most 8 entries with unique tags, and the floors are levels. -/
def Obligations.RequestQueueStaysSound : Prop :=
  ∀ s t : State, queueSound s → step s = .next t → queueSound t

/-- R73, R118 (law 3): every account residue and every history debt residue stays below one quantum. -/
def Obligations.ResiduesStayBelowAQuantum : Prop :=
  ∀ s t : State, law3 s → step s = .next t → law3 t

/-- R24, R22 (law 9): a bus's transaction belongs to one of its own bays, and that bay has no other request posted. -/
def Obligations.BusTransactionsStayTheirOwn : Prop :=
  ∀ s t : State, law9 s → step s = .next t → law9 t

/-- The invariants hold right after reset. A cold reset of the part as it leaves manufacture, no strap present, no supply line
asserted and no cartridge seated, leaves it as it is. That the part leaves manufacture so is the model's choice (log entry 1).
-/
def Obligations.ResetIsColdResetAndMeetsTheInvariants : Prop :=
  (noticeSound State.reset ∧ flashSound State.reset ∧ queueSound State.reset ∧ law3 State.reset ∧ law9 State.reset) ∧
  (∀ landed : Bool,
    exec (.coldReset {
      factoryStrap := false, serviceStrap := false, supplyWarn := false, supplyCrit := false,
      presence := Vector.replicate 12 false, storeLanded := landed }) State.reset = .next State.reset)

/-! ### Reset and start-up -/

/-- R1, R25, R48, R54, R64, R82, R102, R137, R155, R164, R165, R168, R170, R172: a cold reset brings every block to its value
after a cold reset, whatever the state. R152, R154: blank flash leaves every sector ERASED, the table empty and the admission
sequence at 0. R152, R153, R121: one valid sector, the others blank, becomes FULL with its sequence number. After its replay
the entry of every serial is what the sector's last record about the serial says, none after an EVICT or with no record. The
admission sequence is one above the largest last seen, at most 4294967295, and 0 with no entry. (Stated with no write cut short
and no sector torn, and for at most 192 records, so that no entry is replaced.) The margin in use at 0 is the model's choice
(log entry 40). -/
def Obligations.ColdResetClearsEveryBlock : Prop :=
  (∀ (s : State) (i : ResetInputs), ∃ t, exec (.coldReset i) s = .next t ∧
    (∀ b : Bay, t.bay b = BayRec.cleared 0 ∧ t.port b = Port.cleared ∧ t.context b = Context.closed ∧
      t.account b = Account.cold ∧ t.markOrders b = []) ∧
    (∀ n : Bus, t.bus n = { lastGranted := bayOn n 0, current := none, restTimer := none }) ∧
    t.digest.slotsRead = false ∧ t.digest.queue = [] ∧ t.digest.computing = none ∧ t.digest.drawNumber = 0 ∧
    t.digest.writing = none ∧ (s.digest.writing = none → t.digest.store = s.digest.store) ∧
    t.supply = { state := .starting, deadline := none, warn := i.supplyWarn, crit := i.supplyCrit, marginInUse := 0 } ∧
    t.link = { receiver := .hunt, rate := 115200, sending := none, transmit := [] } ∧
    t.dispatcher = { queue := [], settings := Settings.default, lockFloor := 0,
                     strapFloor := if i.factoryStrap then 0 else if i.serviceStrap then 1 else 2 } ∧
    t.journal.writer = .idle ∧ t.journal.failures = 0 ∧ t.journal.room = 0 ∧ t.journal.mode = .normal ∧
    t.journal.startupDone = false ∧
    t.notice.mask = 0 ∧ t.notice.enables = BitVec.allOnes 21 ∧ t.notice.faults = [] ∧
    t.presence = i.presence ∧ t.free = s.free ∧ t.pending = s.pending) ∧
  (∀ (s : State) (i : ResetInputs), s.journal.writer = .idle → s.journal.flash = [] →
    (∀ x : Sector, (s.sector x).torn ≠ some 0) →
    ∃ t, exec (.coldReset i) s = .next t ∧ t.refill = { table := [], sequence := 0 } ∧
      t.journal = {
        flash := [], room := 0, mode := .normal, appendSet := [], writer := .idle, failures := 0, newest := []
        sectors := Vector.replicate 8 { state := .erased, sequence := none, torn := none, erasing := none }
        compaction := .idle, startupDone := false, copyStale := false }) ∧
  ∀ (s : State) (i : ResetInputs) (x : Sector) (n : BitVec 32) (rs : List JournalRecord), s.journal.writer = .idle →
    (∀ y : Sector, (s.sector y).torn = none) → rs.length ≤ 192 → (∀ r ∈ rs, recordFits r) →
    s.journal.flash.readBytes (4096 * x.val) 4096 = headerBytesOf n ++ rs.flatMap JournalRecord.bytes ++
      List.replicate (4080 - (rs.flatMap JournalRecord.bytes).length) 0xFF#8 →
    (∀ y : Sector, y ≠ x → s.journal.flash.sectorBlank y = true) →
    ∃ t, exec (.coldReset i) s = .next t ∧ t.journal.flash = s.journal.flash ∧ t.journal.compaction = .idle ∧
      (∀ y : Sector, t.sector y = if y = x then
        { state := .full, sequence := some n.toNat, torn := none, erasing := none } else
        { state := .erased, sequence := none, torn := none, erasing := none }) ∧
      (∀ z : Serial, ∃ k, t.entry z = lastRecord z k rs) ∧
      t.refill.sequence = if t.refill.table = [] then 0
        else min ((t.refill.table.map (·.lastSeen)).foldl max 0 + 1) 4294967295

/-- R154, R137, R3: the start-up work is complete once no INVALID sector and no erase or compaction is left. Then the part
enters NORMAL if the slots have been read and no supply line is asserted, and every VACANT bay whose presence line shows a
cartridge moves to SETTLING; otherwise it stays in STARTING. With fewer than two ERASED sectors (and nothing FULL to compact)
the journal becomes DEGRADED first. The DEGRADED case without a FULL sector is read from R154 (log entry 43). -/
def Obligations.StartupFinishEndsStarting : Prop :=
  ∀ s : State, s.supply.state = .starting → s.journal.startupDone = false → s.journal.mode = .normal →
    s.journal.compaction = .idle →
    (∀ x : Sector, (s.sector x).state ≠ .invalid ∧ (s.sector x).erasing = none) →
    let finished : State → State := fun u => { u with journal := { u.journal with startupDone := true } }
    ∃ t, exec .startupFinish s = .next t ∧
      (2 ≤ s.journal.erasedCount → leavesStarting (finished s) t) ∧
      (s.journal.erasedCount < 2 → (∀ x : Sector, (s.sector x).state ≠ .full) → leavesStarting (finished (degraded s)) t)

/-! ### Bays -/

/-- R3, R4: a presence rise in a VACANT bay starts the 50 ms settle timer; in STARTING, and in any other state of the bay,
only the line's level changes. -/
def Obligations.PresenceRiseStartsSettling : Prop :=
  ∀ (s : State) (b : Bay),
    (s.supply.state ≠ .starting → (s.bay b).state = .vacant →
      exec (.presenceRise b) s = .next (withBayRec { s with presence := s.presence.set b true } b
        { s.bay b with state := .settling, settleTimer := some 50, settled := false })) ∧
    (s.supply.state = .starting ∨ (s.bay b).state ≠ .vacant →
      exec (.presenceRise b) s = .next { s with presence := s.presence.set b true })

/-- R4, R16, R46: a presence drop in SETTLING returns the bay to VACANT. In every later state it is a withdrawal: the bay's
record (but for the expected class), its posted request, its context and its mark orders are cleared, its account closes, its
transaction in progress is ABORTED with a fault record and a 1 ms rest, WITHDRAWN is raised, and the requests that wait on the
bay complete with FAILED, their replies reporting the cleared record (stated where no other account takes the liability up:
R84). No other bay's record, port, context or mark order changes. -/
def Obligations.PresenceDropWithdrawsTheBay : Prop :=
  ∀ (s : State) (b : Bay),
    ((s.bay b).state = .vacant → exec (.presenceDrop b) s = .next { s with presence := s.presence.set b false }) ∧
    ((s.bay b).state = .settling →
      exec (.presenceDrop b) s = .next (withBayRec { s with presence := s.presence.set b false } b
        { s.bay b with state := .vacant, settleTimer := none, settled := false })) ∧
    ((s.bay b).state ≠ .vacant → (s.bay b).state ≠ .settling →
      ∃ t, exec (.presenceDrop b) s = .next t ∧ t.presence = s.presence.set b false ∧
        t.bay b = BayRec.cleared (s.bay b).expectedClass ∧ t.port b = Port.cleared ∧ t.context b = Context.closed ∧
        t.markOrders b = [] ∧ ((s.account b).live = true → t.account b = Account.cold) ∧
        t.source .withdrawn = joined (s.source .withdrawn) b ∧
        (∀ r, (s.bus (busOf b)).current = some r → r.bay = b →
          t.bus (busOf b) = idleBus (s.bus (busOf b)) (some 1) ∧
          t.notice.faults = joinFaults s.notice.faults (recordFor s (busOf b) r .aborted)) ∧
        ((∀ r, (s.bus (busOf b)).current = some r → r.bay ≠ b) → t.buses = s.buses ∧ t.notice.faults = s.notice.faults) ∧
        (∀ c, c ≠ b → t.bay c = s.bay c ∧ t.port c = s.port c ∧ t.context c = s.context c ∧
          t.markOrders c = s.markOrders c) ∧
        (t.account b).pending = (if (s.account b).live then 0 else (s.account b).pending) ∧ (onlyAccount s b → failsWaits s t b 0x00#8) ∧
        t.supply = s.supply ∧ t.journal.flash = s.journal.flash ∧ t.digest.slots = s.digest.slots)

/-- R84, R132: the liability of the one live account of a serial moves to the serial's history entry: the pending quanta with
the carry of the residues join the debt quanta, saturating at 65535, the debt residue keeps what is below a quantum, and an
in-flight amount becomes the doubt (committed, in-flight). (The bay's ADVANCE is not still posted: R95.) -/
def Obligations.WithdrawalMovesTheLiability : Prop :=
  ∀ (s : State) (b : Bay) (x : Serial) (e : HistoryEntry),
    (s.bay b).state ≠ .vacant → (s.bay b).state ≠ .settling → (s.port b).posted = none → (s.account b).live = true →
    s.serialRead b = some x → s.entry x = some e →
    (∀ c, c ≠ b → s.serialRead c = some x → (s.account c).live = false) →
    ∃ t, exec (.presenceDrop b) s = .next t ∧
      t.entry x = some { e with
        debtQuanta := min (min (e.debtQuanta + (s.account b).pending) 65535 +
          (e.debtResidue + (s.account b).residue) / 100000000000000) 65535
        debtResidue := (e.debtResidue + (s.account b).residue) % 100000000000000
        doubt := if 0 < (s.account b).inFlight then
            some { base := (s.account b).committed, amount := (s.account b).inFlight } else e.doubt,
        bay := if (s.bay b).serial = some x then none else e.bay }

/-- R5, R18, R31, R39: what the expiry of each bay and bus timer does, and that it does nothing else: the settle timer starts
the identification, or holds the bay settled while the supply is failing; the re-challenge timer makes a re-challenge WAITING;
the answer timer makes the ANSWER-FETCH due; the rest timer frees the bus. An expiry acts whenever its timer runs: the model's
choice (log entry 11). -/
def Obligations.TimerExpiriesComplete : Prop :=
  (∀ (s : State) (b : Bay), (s.bay b).state = .settling → (s.bay b).settleTimer.isSome = true →
    (s.supply.state = .normal →
      exec (.settleTimerExpiry b) s = .next (withBayRec s b
        { s.bay b with state := .identifying, readAttempts := 0, settleTimer := none, settled := false })) ∧
    (s.supply.state = .save ∨ s.supply.state = .expired →
      exec (.settleTimerExpiry b) s = .next (withBayRec s b { s.bay b with settleTimer := none, settled := true }))) ∧
  (∀ (s : State) (b : Bay), (s.bay b).rechallengeTimer.isSome = true →
    exec (.rechallengeTimerExpiry b) s = .next (withBayRec s b
      { s.bay b with rechallengeTimer := none, rechallenge := .waiting })) ∧
  (∀ (s : State) (b : Bay), (s.port b).answerTimer.isSome = true →
    exec (.answerTimerExpiry b) s = .next (withBayRec (withPort s b { s.port b with answerTimer := none }) b
      { s.bay b with fetchDue := true })) ∧
  (∀ (s : State) (n : Bus), exec (.restTimerExpiry n) s = .next (withBusState s n { s.bus n with restTimer := none }))

/-- R19, R21: a WAITING re-challenge starts when the bay has no commit in progress. With its slot ENABLED it becomes RUNNING
with its counts at 0; with its slot no longer ENABLED the bay moves to REJECTED with UNKNOWN_ISSUER, its account closes,
REJECTED_OTHER is raised, and the requests that wait on the bay complete with FAILED, in every supply state. The start is a
command of its own (log entry 14). -/
def Obligations.WaitingRechallengeStarts : Prop :=
  ∀ (s : State) (b : Bay) (k : SlotNo), (s.bay b).drawable = true → (s.bay b).rechallenge = .waiting →
    (s.account b).commitState = .idle → (s.bay b).slot = some k →
    ((s.slot k).state = .enabled → s.supply.state = .normal →
      exec (.rechallengeStart b) s = .next (withBayRec s b
        { s.bay b with rechallenge := .running, mismatches := 0, commFailures := 0 })) ∧
    ((s.slot k).state ≠ .enabled →
      ∃ t, exec (.rechallengeStart b) s = .next t ∧ rejectsBay s t b .unknownIssuer .rejectedOther)

/-! ### The buses -/

/-- R22, R45: what a bay with nothing posted and nothing in progress posts, and its attempt number, in the rule's order: a
CHECK-READ while its commit is in doubt; a commit with the SAVE demand, ahead of a MARK that stands and of a re-challenge that
runs; the MARK of its older order; any other commit that is due, unless a re-challenge runs; an IDENTIFYING bay's next page
read; and a challenge's next step, of an admission or of a re-challenge: the ANSWER-FETCH once it is due, or the NONCE-SEND of a
new exchange while none is open. A commit that is posted carries all that is pending (R94). That is stated while no grant is due
on the bay's bus. R28: a grant that is due then, to another bay's request, is made first, without the new one. A posting, and a
grant, are commands of their own (log entry 14). (The NONCE-SEND is stated for a bay with both pages and a slot while the engine
computes another job.) -/
def Obligations.BayPostsTheFirstOperationDue : Prop :=
  (∀ (s g : State) (b : Bay), (s.port b).posted = none → (∀ t, (s.bus (busOf b)).current = some t → t.bay ≠ b) →
    (s.nextDue b).isSome = true → exec (.busGrant (busOf b)) s = .next g →
    exec (.postNextOperation b) s = exec (.postNextOperation b) g ∧ noGrantDue g b) ∧
  ∀ (s : State) (b : Bay), (s.port b).posted = none → (∀ t, (s.bus (busOf b)).current = some t → t.bay ≠ b) →
    noGrantDue s b →
    let committing : State := withPort
      (withAccount s b { s.account b with
        inFlight := (s.account b).pending, target := (s.account b).committed + (s.account b).pending, commitState := .advance })
      b { s.port b with posted := some {
        op := .advance (s.account b).index ((s.account b).committed + (s.account b).pending),
        attempt := (s.account b).failures + 1 } }
    let mayCommit : Prop := (s.bay b).drawable = true ∧ (s.account b).live = true ∧ (s.account b).metering = .metered ∧
      (s.account b).mode ≠ .frozen ∧ (s.account b).commitState = .idle ∧ 0 < (s.account b).pending
    let challenges : ChallengeKind → Prop := fun k =>
      ((s.bay b).state = .challenging ∧ k = .admission) ∨
      ((s.bay b).drawable = true ∧ (s.bay b).rechallenge = .running ∧ k = .rechallenge ∧ (s.account b).commitState ≠ .check ∧
        (s.account b).drain.save = false ∧ s.markOrders b = [])
    ((s.bay b).drawable = true → (s.account b).live = true → (s.account b).commitState = .check →
      exec (.postNextOperation b) s = .next (withPort s b
        { s.port b with posted := some { op := .checkRead (s.account b).index, attempt := 1 } })) ∧
    (mayCommit → (s.account b).drain.save = true → exec (.postNextOperation b) s = .next committing) ∧
    (∀ (o : MarkOrder) (os : List MarkOrder), s.markOrders b = o :: os → (s.bay b).state.mayMark = true →
      (s.account b).commitState ≠ .check → (s.account b).drain.save = false →
      exec (.postNextOperation b) s = .next (withPort s b
        { s.port b with posted := some { op := .mark o.mark, attempt := o.attempts + 1 } })) ∧
    (mayCommit → s.markOrders b = [] → (s.bay b).rechallenge ≠ .running →
      ((s.account b).mode = .through ∨ s.settings.batch ≤ (s.account b).pending ∨ (s.account b).drain.any = true) →
      exec (.postNextOperation b) s = .next committing) ∧
    ((s.bay b).state = .identifying →
      exec (.postNextOperation b) s = .next (withPort s b
        { s.port b with posted := some {
          op := .identRead (if (s.bay b).identityPage = none then .identity
            else if (s.bay b).rejectReason = .none ∧ (s.bay b).calibrationPage = none then .calibration else .usage),
          attempt := (s.bay b).readAttempts + 1 } })) ∧
    ∀ k : ChallengeKind, challenges k →
      ((s.context b).kind.isSome = true → (s.bay b).fetchDue = true →
        exec (.postNextOperation b) s = .next (withPort (withBayRec s b { s.bay b with fetchDue := false }) b
          { s.port b with posted := some { op := .answerFetch k, attempt := (s.bay b).commFailures + 1 } })) ∧
      ((s.context b).kind = none → s.digest.computing.isSome = true → (s.bay b).identityPage.isSome = true →
        (s.bay b).calibrationPage.isSome = true → (s.bay b).slot.isSome = true →
        ∃ t nonce, exec (.postNextOperation b) s = .next t ∧ (t.port b).posted = some {
          op := .nonceSend k nonce, attempt := (s.bay b).commFailures + 1 })

/-- R54, R53, R55: a CHALLENGING bay, or one whose re-challenge runs and which has nothing earlier due (R22), opens an exchange
while its context is closed: a nonce made of the draw number and fresh random bytes is drawn, the context opens, a job with
copies of the pages joins the engine's queue, and the NONCE-SEND is posted. While the engine computes another job the job waits
at the queue's tail. An idle engine with an empty queue begins it at once: with its slot ENABLED it computes the answer from the
slot's secret, the nonce, the serial and the pages; with its slot no longer ENABLED the job ends at once with its answer
withheld. (Stated while no grant is due on the bus: R28.) The random bytes are left open (log entry 4), and so is the answer of
the digest (log entry 3). -/
def Obligations.ChallengingBayOpensAnExchange : Prop :=
  ∀ (s : State) (b : Bay) (kind : ChallengeKind) (i : IdentityPage) (c : CalibrationPage) (k : SlotNo),
    (s.port b).posted = none → (∀ t, (s.bus (busOf b)).current = some t → t.bay ≠ b) → noGrantDue s b →
    ((s.bay b).state = .challenging ∧ kind = .admission) ∨
      ((s.bay b).drawable = true ∧ (s.bay b).rechallenge = .running ∧ kind = .rechallenge ∧ (s.account b).commitState ≠ .check ∧
        (s.account b).drain.save = false ∧ s.markOrders b = []) →
    (s.context b).kind = none →
    (s.bay b).identityPage = some i → (s.bay b).calibrationPage = some c → (s.bay b).slot = some k →
    s.digest.drawNumber < 2 ^ 48 →
    let nonce : BitVec 128 := BitVec.ofNat 48 s.digest.drawNumber ++ Config.random s.free
    let opened : List Job → Option Computing → JobState → Expected → State := fun queue computing job expected => withPort
      { s with
        free := s.free + 1
        digest := { s.digest with
          drawNumber := s.digest.drawNumber + 1, queue := queue, computing := computing
          contexts := s.digest.contexts.set b { Context.closed with
            kind := some kind, slot := some k, job := job, expected := expected, nonce := nonce } } }
      b { s.port b with posted := some { op := .nonceSend kind nonce, attempt := (s.bay b).commFailures + 1 } }
    (s.digest.computing.isSome = true →
      exec (.postNextOperation b) s = .next (opened
        (s.digest.queue ++ [{
          bay := b, slot := k, nonce := nonce, serial := i.serial, identityPage := i.bytes, calibrationPage := c.bytes }])
        s.digest.computing .waiting .absent)) ∧
    (s.digest.computing = none → s.digest.queue = [] →
      (∀ secret, (s.slot k).state = .enabled → (s.slot k).secret = some secret →
        exec (.postNextOperation b) s = .next (opened []
          (some { bay := b, answer := Config.answer secret nonce i.serial i.bytes c.bytes, discarded := false })
          .computing .absent)) ∧
      ((s.slot k).state ≠ .enabled →
        exec (.postNextOperation b) s = .next (opened [] none .done .withheld)))

/-- R29: at each grant the arbiter chooses a request of the highest class posted on its bus. In class 2 it chooses the largest
pending, and the lower bay among equals; in every other class it chooses the first bay in turn after the bay last granted,
going round the bus's four bays. It chooses one exactly if one is posted. -/
def Obligations.ArbiterChoosesByClassThenTurn : Prop :=
  ∀ (s : State) (n : Bus),
    (s.choice n = none ↔ ∀ k : Fin 4, (s.port (bayOn n k)).posted = none) ∧
    ∀ b : Bay, s.choice n = some b →
      busOf b = n ∧ ∃ q, (s.port b).posted = some q ∧
        (∀ (c : Bay) (r : BusRequest), busOf c = n → (s.port c).posted = some r →
          requestClass (s.account b) q ≤ requestClass (s.account c) r) ∧
        (requestClass (s.account b) q = 2 →
          ∀ (c : Bay) (r : BusRequest), busOf c = n → (s.port c).posted = some r → requestClass (s.account c) r = 2 →
            (s.account c).pending < (s.account b).pending ∨
              ((s.account c).pending = (s.account b).pending ∧ b.val ≤ c.val)) ∧
        (requestClass (s.account b) q ≠ 2 →
          ∀ (c : Bay) (r : BusRequest), busOf c = n → (s.port c).posted = some r →
            requestClass (s.account c) r = requestClass (s.account b) q →
            (b.val + 3 - (s.bus n).lastGranted.val % 4) % 4 ≤ (c.val + 3 - (s.bus n).lastGranted.val % 4) % 4)

/-- R28, R40, R41: a grant removes the chosen request from the posted ones, makes it the current transaction in its first
phase, and sets last granted; an ANSWER-FETCH's fetch count grows by 1, and an ADVANCE takes the program time, clamped to 1 to
20 ms. While the bus is not free or the supply is in EXPIRED no grant is made. A grant is a command of its own (log entry 14).
-/
def Obligations.GrantMakesTheTransaction : Prop :=
  ∀ (s : State) (n : Bus),
    (∀ (b : Bay) (q : BusRequest), (s.bus n).current = none → (s.bus n).restTimer = none → s.supply.state ≠ .expired →
      s.choice n = some b → (s.port b).posted = some q →
      exec (.busGrant n) s = .next (withBusState
        (withPort s b { s.port b with
          posted := none
          fetchCount := if q.op.kind = .answerFetch then (s.port b).fetchCount + 1 else (s.port b).fetchCount })
        n { s.bus n with
          lastGranted := b
          current := some {
            bay := b, request := q, phase := q.op.firstPhase, discarded := false
            programTime := if q.op.kind = .advance then some (s.bay b).programTime else none } })) ∧
    ((s.bus n).current.isSome = true ∨ (s.bus n).restTimer.isSome = true ∨ s.supply.state = .expired →
      exec (.busGrant n) s = .next s)

/-- R26, R31, R40, R45: a transaction fails when no reply begins within 2 ms, whatever its kind and its phase but BURN, or when the
reply it awaits has a wrong check, status, length or content, is REFUSED, is BUSY (in a fetch, for the fourth time), or reads
back at CONFIRM another counter than the target. Exactly one fault record is written, with the error kind; the transaction ends;
the rest timer starts at 1 ms after an ADVANCE or a MARK and is left alone after any other; the fetch count of a failed
ANSWER-FETCH becomes 0; and the other buses are untouched. R47, R61: where the result is discarded, nothing more changes. R6: a
page read that fails for the first or the second time is counted, and nothing more changes. At the third failure the bay moves
to FAULTED and raises BAY_FAULTED, its pages as read are discarded, and it unbinds its entry: the entry's bay becomes none and
the bay's serial absent. No account changes. The requests that wait on the bay complete with FAILED. -/
def Obligations.ReplyTimeoutFailsTheTransaction : Prop :=
  ∀ (s : State) (n : Bus) (t : Transaction) (c : Instr) (e : ErrorKind),
    (s.bus n).current = some t → busOf t.bay = n → transactionFails s c n t e →
    (∃ r, exec c s = .next r ∧ r.notice.faults = joinFaults s.notice.faults (recordFor s n t e) ∧
      r.bus n = idleBus (s.bus n)
        (if t.request.op.kind = .advance ∨ t.request.op.kind = .mark then some 1 else (s.bus n).restTimer) ∧
      (t.request.op.kind = .answerFetch → (r.port t.bay).fetchCount = 0) ∧ ∀ m, m ≠ n → r.bus m = s.bus m) ∧
    (t.discarded = true → exec c s = .next (afterFailure s n t e)) ∧
    ∀ page, t.request.op = .identRead page → t.discarded = false →
      ((s.bay t.bay).readAttempts < 2 →
        exec c s = .next (withBayRec (afterFailure s n t e) t.bay
          { s.bay t.bay with readAttempts := (s.bay t.bay).readAttempts + 1 })) ∧
      (2 ≤ (s.bay t.bay).readAttempts →
        ∃ r, exec c s = .next r ∧ faultsBay s r t.bay ∧ (r.bay t.bay).identityPage = none ∧
          (r.bay t.bay).calibrationPage = none ∧ (r.bay t.bay).usagePage = none ∧ (r.bay t.bay).serial = none ∧
          r.accounts = s.accounts ∧ r.refill.sequence = s.refill.sequence ∧
          ∀ x, r.entry x = (s.entry x).map fun h => if (s.bay t.bay).serial = some x then { h with bay := none } else h)

/-- R6, R7, R9, R32, R33, R38: an identity page that reads well is stored. With the class and issuer checks passed the bay's
issuer slot is set; a failed check records its reject reason, WRONG_CLASS or else UNKNOWN_ISSUER. A calibration page that reads
well is stored. R120, R121: a usage page that reads well hands the identity over: the serial's history entry, created if there
was none, takes the class code and the admission sequence as its last seen, which then grows by 1. R122: a doubt the entry held
is cleared, its debt quanta falling by what has landed. R8: an entry with no bay, or this one, is bound to the bay, which takes
the serial; one bound elsewhere stays so, and the bay's serial stays absent. A kept serial that differs is unbound first (stated
for a serial read that has an entry). With the checks passed the bay moves to CHALLENGING
with its counts at 0. R7, R123: after a failed check it moves to REJECTED with the reason recorded and raises REJECTED_OTHER,
and the entry takes the usage page's counter and marks. (After a failed check the entry is read where the bay has no live
account.) -/
def Obligations.PageReadsIdentifyTheCartridge : Prop :=
  ∀ (s : State) (n : Bus) (t : Transaction) (data : List Byte),
    (s.bus n).current = some t → t.phase = .reply → t.discarded = false →
    let b := t.bay
    let reply : Instr := .identReadReply n (tokenFrame 0x00#8 data)
    let ended : BayRec → State := fun r => withBayRec (withBusState s n (idleBus (s.bus n) (s.bus n).restTimer)) b r
    (∀ i : IdentityPage, t.request.op = .identRead .identity → readIdentityPage data = some i →
      let read : BayRec := { s.bay b with identityPage := some i, classCode := some i.classCode, readAttempts := 0 }
      (∀ k, checksPass s b i k → exec reply s = .next (ended { read with slot := some k })) ∧
      ((s.bay b).expectedClass ≠ 0 → (s.bay b).expectedClass ≠ i.classCode →
        exec reply s = .next (ended { read with rejectReason := .wrongClass })) ∧
      ((s.bay b).expectedClass = 0 ∨ (s.bay b).expectedClass = i.classCode →
        (∀ k, (s.slot k).state = .enabled → (s.slot k).tag ≠ some i.issuerTag) →
        exec reply s = .next (ended { read with rejectReason := .unknownIssuer }))) ∧
    (∀ c : CalibrationPage, t.request.op = .identRead .calibration → readCalibrationPage data = some c →
      exec reply s = .next (ended { s.bay b with calibrationPage := some c, readAttempts := 0 })) ∧
    (∀ (u : UsagePage) (i : IdentityPage), t.request.op = .identRead .usage → (s.bay b).identityPage = some i →
      readUsagePage i.capacity data = some u →
      let passed : Prop := (s.bay b).rejectReason = .none
      let found : HistoryEntry → HistoryEntry := fun h => { h with
        classCode := i.classCode, lastSeen := s.refill.sequence, doubt := none
        debtQuanta := match h.doubt with | some d => h.debtQuanta - min d.amount (u.counter - d.base) | none => h.debtQuanta
        bay := if h.bay = none then some b else h.bay
        highWater := if passed then h.highWater else max h.highWater u.counter
        marks := if passed then h.marks else
          { spent := h.marks.spent || u.spent, refill := h.marks.refill || u.refill } }
      let bound : Prop := ∀ h, s.entry i.serial = some h → h.bay = none ∨ h.bay = some b
      ∃ r, exec reply s = .next r ∧ (r.bay b).usagePage = some u ∧ (r.bay b).identityPage = some i ∧
        r.bus n = idleBus (s.bus n) (s.bus n).restTimer ∧ r.refill.sequence = min (s.refill.sequence + 1) 4294967295 ∧
        (∀ d, d ≠ b → r.bay d = s.bay d) ∧ (bound → (r.bay b).serial = some i.serial) ∧
        (¬bound → (s.bay b).serial ≠ some i.serial → (r.bay b).serial = none) ∧
        (passed → (r.bay b).state = .challenging ∧ (r.bay b).mismatches = 0 ∧ (r.bay b).commFailures = 0 ∧
          r.accounts = s.accounts) ∧
        ((s.bay b).rejectReason = .wrongClass ∨ (s.bay b).rejectReason = .unknownIssuer →
          rejectsBay s r b (s.bay b).rejectReason .rejectedOther) ∧
        (∀ y, (s.bay b).serial = some y → y ≠ i.serial → (s.entry i.serial).isSome = true →
          r.entry y = (s.entry y).map fun h => { h with bay := none }) ∧
        (passed ∨ (s.account b).live = false →
          (∀ h, s.entry i.serial = some h → r.entry i.serial = some (found h)) ∧
          (s.entry i.serial = none → ∃ place,
            r.entry i.serial = some (found (HistoryEntry.created place i.serial i.classCode)))))

/-- R39: an OK acknowledgement of a NONCE-SEND releases the bus, sets the fetch count to 0 and starts the answer timer at the
compute time, clamped to 2 to 60 ms, also where its result is discarded when it reaches the bay (R47, R61). For a bay whose
calibration page has been cleared meanwhile, the time is left open within those bounds (log entry 22). R40, R57: a BUSY reply to
an ANSWER-FETCH below the fourth ends it without a record and sets the answer timer to 2 ms, discarded or not. An OK reply sets
the fetch count to 0. It stores the token's answer, and leaves the exchange open while the engine's answer is absent, unless its
result is discarded. R57 to R60: a NONCE-SEND or an ANSWER-FETCH that fails, not discarded, ends the exchange: its context
closes, and its job leaves the engine (R56). With its slot ENABLED and its answer not withheld, a communication failure is
counted, in an admission and in a re-challenge alike. The first and the second leave the bay as it is otherwise, no fetch being
due; at the third it moves to FAULTED and raises BAY_FAULTED, its account untouched, and the requests that wait on it complete
with FAILED (R15, R20). With its slot no longer ENABLED, or its answer withheld, the bay is REJECTED with UNKNOWN_ISSUER, and
the requests that wait on it complete with FAILED. -/
def Obligations.ChallengeRepliesAdvanceTheExchange : Prop :=
  (∀ (s : State) (n : Bus) (t : Transaction),
    (s.bus n).current = some t → t.request.op.kind = .nonceSend → t.phase = .acknowledgement →
    let timed : Nat → State := fun ms => withPort (withBusState s n (idleBus (s.bus n) (s.bus n).restTimer)) t.bay
      { s.port t.bay with fetchCount := 0, answerTimer := some ms }
    let after : Nat → State := fun ms =>
      if t.discarded = true then timed ms else withBayRec (timed ms) t.bay { s.bay t.bay with fetchDue := false }
    (∀ c : CalibrationPage, (s.bay t.bay).calibrationPage = some c →
      exec (.nonceSendAcknowledgement n (tokenFrame 0x00#8 [])) s = .next (after (max 2 (min 60 c.computeTime)))) ∧
    ((s.bay t.bay).calibrationPage = none → ∃ ms, 2 ≤ ms ∧ ms ≤ 60 ∧
      exec (.nonceSendAcknowledgement n (tokenFrame 0x00#8 [])) s = .next { after ms with free := s.free + 1 })) ∧
  (∀ (s : State) (n : Bus) (t : Transaction), (s.bus n).current = some t → t.request.op.kind = .answerFetch →
    t.phase = .fetch →
    ((s.port t.bay).fetchCount < 4 →
      exec (.answerFetchReply n (tokenFrame 0x03#8 [])) s = .next (withPort
        (withBusState s n (idleBus (s.bus n) (s.bus n).restTimer)) t.bay { s.port t.bay with answerTimer := some 2 })) ∧
    (∀ data : List Byte, data.length = 16 →
      let ended : State :=
        withBusState (withPort s t.bay { s.port t.bay with fetchCount := 0 }) n (idleBus (s.bus n) (s.bus n).restTimer)
      (t.discarded = true → exec (.answerFetchReply n (tokenFrame 0x00#8 data)) s = .next ended) ∧
      (t.discarded = false → (s.context t.bay).expected = .absent →
        exec (.answerFetchReply n (tokenFrame 0x00#8 data)) s = .next (withContext ended
          t.bay { s.context t.bay with tokenAnswer := some (BitVec.ofNat 128 (beNat data)) })))) ∧
  (∀ (s : State) (n : Bus) (t : Transaction) (c : Instr) (e : ErrorKind) (k : SlotNo),
    (s.bus n).current = some t → busOf t.bay = n → transactionFails s c n t e →
    t.request.op.kind = .nonceSend ∨ t.request.op.kind = .answerFetch → t.discarded = false →
    (s.context t.bay).kind.isSome = true → (s.context t.bay).slot = some k →
    let failed := afterFailure s n t e
    let ended : State := { failed with digest := { s.digest with
      contexts := s.digest.contexts.set t.bay Context.closed
      queue := s.digest.queue.filter fun j => j.bay != t.bay
      computing := s.digest.computing.map fun x => if x.bay = t.bay then { x with discarded := true } else x } }
    ((s.slot k).state = .enabled → (s.context t.bay).expected ≠ .withheld →
      ((s.bay t.bay).commFailures < 2 →
        exec c s = .next (withBayRec ended t.bay
          { s.bay t.bay with commFailures := (s.bay t.bay).commFailures + 1, fetchDue := false })) ∧
      (2 ≤ (s.bay t.bay).commFailures →
        ∃ r, exec c s = .next r ∧ faultsBay s r t.bay ∧ (r.bay t.bay).commFailures = (s.bay t.bay).commFailures + 1 ∧
          r.digest = ended.digest ∧ r.accounts = s.accounts ∧ r.refill = s.refill ∧ r.journal = s.journal)) ∧
    ((s.slot k).state ≠ .enabled ∨ (s.context t.bay).expected = .withheld →
      ∃ r, exec c s = .next r ∧ rejectsBay s r t.bay .unknownIssuer .rejectedOther ∧
        (r.bay t.bay).commFailures = (s.bay t.bay).commFailures ∧ r.digest = ended.digest))

/-- R55, R56: when the engine ends a job it has not been told to discard, its answer becomes the context's expected answer,
and the exchange stays open while the token's answer is absent; a discarded job's result goes nowhere. With no other job queued
the engine is then idle. Otherwise it removes the job at the head of its queue and begins it: with its slot ENABLED the context's
job becomes COMPUTING, and the answer is computed from the slot's secret, the job's nonce, serial and pages; with its slot no
longer ENABLED the job ends at once with its answer withheld. (The withheld job is stated as the queue's last, the token's
answer for it still absent.) The digest's answer is left open (log entry 3). -/
def Obligations.EngineDoneGivesTheExpectedAnswer : Prop :=
  ∀ (s : State) (c : Computing), s.digest.computing = some c →
    c.discarded = true ∨ (s.context c.bay).tokenAnswer = none →
    let ended : Digest := if c.discarded = true then { s.digest with computing := none } else { s.digest with
      computing := none
      contexts := s.digest.contexts.set c.bay { s.context c.bay with job := .done, expected := .present c.answer } }
    (s.digest.queue = [] → exec .engineDone s = .next { s with digest := ended }) ∧
    ∀ (j : Job) (rest : List Job), s.digest.queue = j :: rest →
      (∀ secret, (s.slot j.slot).state = .enabled → (s.slot j.slot).secret = some secret →
        exec .engineDone s = .next { s with digest := { ended with
          queue := rest
          contexts := ended.contexts.set j.bay { ended.contexts[j.bay] with job := .computing }
          computing := some {
            bay := j.bay, discarded := false
            answer := Config.answer secret j.nonce j.serial j.identityPage j.calibrationPage } } }) ∧
      ((s.slot j.slot).state ≠ .enabled → rest = [] → (s.context j.bay).tokenAnswer = none →
        exec .engineDone s = .next { s with digest := { ended with
          queue := []
          contexts := ended.contexts.set j.bay { ended.contexts[j.bay] with job := .done, expected := .withheld } } })

/-- R41: an ADVANCE runs its phases in order within one tenure: an OK reply to ARM leads to LOAD, an OK reply to LOAD leads to
BURN, and the end of BURN leads to CONFIRM. Nothing else changes. R26, R42, R45: an ADVANCE that fails, by a timeout, a bad
frame, a REFUSED or a BUSY reply, ends with its fault record and a 1 ms rest. R97: a failure in ARM is not landed: in-flight becomes
0, the commit state IDLE and the failure count grows by 1; at a count of 1 or 2 COMMIT_RETRY is raised and nothing else changes,
and at 3 the bay moves to FAULTED and raises BAY_FAULTED, its account live with committed and pending as they were; the requests
that wait on the bay complete with FAILED. R98: a failure in LOAD or CONFIRM is in doubt: the commit state
becomes CHECK, and nothing else changes. (Stated for a live account whose commit the ADVANCE is.) -/
def Obligations.AdvanceRunsItsPhases : Prop :=
  ∀ (s : State) (n : Bus) (t : Transaction), (s.bus n).current = some t → t.request.op.kind = .advance →
    (t.phase = .arm → exec (.armReply n (tokenFrame 0x00#8 [])) s =
      .next (withBusState s n { s.bus n with current := some { t with phase := .load } })) ∧
    (t.phase = .load → exec (.loadReply n (tokenFrame 0x00#8 [])) s =
      .next (withBusState s n { s.bus n with current := some { t with phase := .burn } })) ∧
    (t.phase = .burn → exec (.burnEnd n) s =
      .next (withBusState s n { s.bus n with current := some { t with phase := .confirm } })) ∧
    ∀ (c : Instr) (e : ErrorKind), busOf t.bay = n → transactionFails s c n t e → t.discarded = false →
      (s.account t.bay).live = true → (s.account t.bay).commitState = .advance →
      let failed := afterFailure s n t e
      let counted : Account := { s.account t.bay with
        inFlight := 0, commitState := .idle, failures := (s.account t.bay).failures + 1 }
      (t.phase = .arm →
        ((s.account t.bay).failures < 2 →
          exec c s = .next (withSource (withAccount failed t.bay counted)
            .commitRetry (joined (s.source .commitRetry) t.bay))) ∧
        (2 ≤ (s.account t.bay).failures →
          ∃ r, exec c s = .next r ∧ faultsBay s r t.bay ∧ r.accounts = s.accounts.set t.bay counted ∧
            r.bus n = failed.bus n ∧ r.notice.faults = failed.notice.faults ∧
            r.refill = s.refill ∧ r.journal = s.journal)) ∧
      (t.phase = .load ∨ t.phase = .confirm →
        exec c s = .next (withAccount failed t.bay { s.account t.bay with commitState := .check }))

/-- R41, R96, R134, R31: a CONFIRM that reads the target completes the commit: committed becomes the target, pending falls by
in-flight, in-flight and the failure count become 0, the commit state returns to IDLE, the serial's high-water reaches the
target, and a 1 ms rest follows; no other bay's account changes. R101, R134: committed at capacity places a SPENT order unless
one stands, raises SPENT and retires the serial's entry. R96, R103: pending at 0 clears the FLUSH demand, and the FLUSHes
waiting on the bay complete with OK. (The queue is stated with no FLUSH for ALL in it.) R104, R78: with pending at 0, a
RELEASING bay with less than half a quantum of residue, or at capacity, closes its account, moves to RELEASED and raises
RELEASED; its RELEASE completes with OK, a FLUSH that waits beside it in either order (R178). Half a quantum or more is rounded
to a quantum, which is pending. A CONFIRM that reads another counter fails with VERIFY_MISMATCH and leaves the commit in doubt
(R42, R98). -/
def Obligations.ConfirmEndsTheCommit : Prop :=
  ∀ (s : State) (n : Bus) (t : Transaction) (index target c : Nat),
    (s.bus n).current = some t → t.request.op = .advance index target → t.phase = .confirm → t.discarded = false →
    c < 65536 → (s.account t.bay).live = true → (s.account t.bay).commitState = .advance →
    let a := s.account t.bay
    let bay : Byte := BitVec.ofNat 8 t.bay.val
    let confirm : Instr := .confirmReply n (tokenFrame 0x00#8 (leBytes 2 c))
    (c = target → a.inFlight ≤ a.pending →
      ¬(a.inFlight = a.pending ∧ a.drain.release = true ∧ (s.bay t.bay).state = .releasing) →
      ∃ r, exec confirm s = .next r ∧
        r.accounts = s.accounts.set t.bay { a with
          committed := a.target, pending := a.pending - a.inFlight, inFlight := 0, commitState := .idle, failures := 0
          drain := if a.inFlight = a.pending then { a.drain with flush := false } else a.drain } ∧
        r.bus n = idleBus (s.bus n) (some 1) ∧ r.bays = s.bays ∧ r.ports = s.ports ∧
        r.orders = (if a.target = a.capacity ∧ ∀ o ∈ s.markOrders t.bay, o.mark ≠ .spent then
          s.orders.set t.bay (s.markOrders t.bay ++ [{ mark := .spent, attempts := 0 }]) else s.orders) ∧
        r.source .spent = (if a.target = a.capacity then joined (s.source .spent) t.bay else s.source .spent) ∧
        r.digest = s.digest ∧ r.settings = s.settings ∧ r.supply = s.supply ∧ r.journal.flash = s.journal.flash ∧
        (∀ x, s.serialRead t.bay = some x → r.entry x = (s.entry x).map fun e =>
          { e with highWater := max e.highWater a.target, retired := e.retired || decide (a.target = a.capacity) }) ∧
        (a.inFlight < a.pending → r.dispatcher = s.dispatcher ∧ r.link = s.link) ∧
        (a.inFlight = a.pending → tagsUnique s → (∀ e ∈ s.dispatcher.queue, ∀ os, e.wait ≠ .flushAll os) →
          r.dispatcher.queue = completing (.flush t.bay) s.dispatcher.queue ∧
          ((∀ e ∈ s.dispatcher.queue, e.wait ≠ .flush t.bay) → r.link = s.link) ∧
          ∀ e, (s.dispatcher.queue.filter fun q => q.wait = .flush t.bay) = [e] →
            r.link = (placing s (replyOf e .ok [bay, 0x00#8, 0x00#8])).link)) ∧
    (c = target → a.inFlight = a.pending → a.drain.release = true → (s.bay t.bay).state = .releasing → a.metering = .metered →
      ∃ r, exec confirm s = .next r ∧
        (a.residue < 50000000000000 ∨ a.target = a.capacity →
          r.account t.bay = Account.cold ∧ (r.bay t.bay).state = .released ∧
          r.source .released = joined (s.source .released) t.bay ∧
          (∀ d, d ≠ t.bay → r.bay d = s.bay d ∧ r.account d = s.account d) ∧
          (tagsUnique s → ∀ e, e.wait = .release t.bay →
            (waitingOn s t.bay = [e] → r.link = (placing s (replyOf e .ok [bay, 0x08#8])).link) ∧
            ∀ f, f.wait = .flush t.bay → waitingOn s t.bay = [e, f] ∨ waitingOn s t.bay = [f, e] →
              eitherOrder s r (replyOf f .ok [bay, 0x00#8, 0x00#8]) (replyOf e .ok [bay, 0x08#8]))) ∧
        (50000000000000 ≤ a.residue → a.target < a.capacity →
          (r.account t.bay).pending = 1 ∧ (r.account t.bay).residue = 0 ∧ (r.account t.bay).committed = a.target ∧
          (r.account t.bay).drain.release = true ∧ (r.bay t.bay).state = .releasing)) ∧
    (c ≠ target →
      exec confirm s = .next (withAccount
        (withBusState { s with notice := { s.notice with
            faults := joinFaults s.notice.faults (recordFor s n t .verifyMismatch) } } n (idleBus (s.bus n) (some 1)))
        t.bay { a with commitState := .check }))

/-- R43, R102, R134, R31: a MARK answered OK or ALREADY ends its order, and the serial's marks seen gain the mark; a 1 ms rest
follows, and nothing else changes but the append set and its note of a stale copy (no other serial's entry does). The note is the
model's own (log entry 31). R26, R45, R102: a MARK that fails ends with its fault record and a 1 ms rest. At its first three
failures the attempts made of its order grow by 1, in its place; at the fourth the order is removed. Nothing else changes. -/
def Obligations.MarkReplyEndsTheOrder : Prop :=
  ∀ (s : State) (n : Bus) (t : Transaction) (m : Mark),
    (s.bus n).current = some t → t.request.op = .mark m → t.phase = .reply → t.discarded = false →
    (∀ (x : Serial) (status : Byte), s.serialRead t.bay = some x → status = 0x00#8 ∨ status = 0x02#8 →
      ∃ r, exec (.markReply n (tokenFrame status [])) s = .next r ∧
        r = { s with
          orders := s.orders.set t.bay ((s.markOrders t.bay).filter fun o => o.mark ≠ m)
          buses := s.buses.set n (idleBus (s.bus n) (some 1))
          refill := { s.refill with table := r.refill.table }
          journal := { s.journal with appendSet := r.journal.appendSet, copyStale := r.journal.copyStale } } ∧
        r.entry x = (s.entry x).map (fun e => { e with marks := e.marks.add m }) ∧ ∀ y, y ≠ x → r.entry y = s.entry y) ∧
    ∀ (c : Instr) (e : ErrorKind) (o : MarkOrder) (older newer : List MarkOrder), transactionFails s c n t e →
      s.markOrders t.bay = older ++ o :: newer → o.mark = m → (∀ q ∈ older ++ newer, q.mark ≠ m) →
      let left := if o.attempts < 3 then older ++ { o with attempts := o.attempts + 1 } :: newer else older ++ newer
      exec c s = .next { afterFailure s n t e with orders := s.orders.set t.bay left }

/-- R44, R99: a CHECK-READ resolves a commit in doubt by the counter read: at the target it is a success (stated for an account
that is not used up and has more pending); at committed nothing landed; between the two, the part that landed moves from pending
to committed; in both the failure is counted, below the third COMMIT_RETRY is raised, and at the third the bay moves to FAULTED
and raises BAY_FAULTED with its account live; anywhere else the bay is REJECTED with ROLLBACK and its account closes. A bay that
moves so completes the requests that wait on it with FAILED. R100: a CHECK-READ that fails moves the bay to FAULTED at once, its
account and its entry as they were; the requests that wait on the bay complete with FAILED. No rest follows (R31). -/
def Obligations.CheckReadResolvesTheDoubt : Prop :=
  ∀ (s : State) (n : Bus) (t : Transaction) (index : Nat),
    (s.bus n).current = some t → t.request.op = .checkRead index → t.phase = .reply → t.discarded = false →
    (s.account t.bay).live = true → (s.account t.bay).commitState = .check →
    (∀ c : Nat, c < 65536 →
      let a := s.account t.bay
      let counted : Account := { a with inFlight := 0, commitState := .idle, failures := a.failures + 1 }
      ∃ r, exec (.checkReadReply n (tokenFrame 0x00#8 (leBytes 2 c))) s = .next r ∧
        r.bus n = { idleBus (s.bus n) (s.bus n).restTimer with current := none } ∧
        (c = a.target → c ≠ a.capacity → a.inFlight < a.pending →
          r.account t.bay = { a with
            committed := c, pending := a.pending - a.inFlight, inFlight := 0, commitState := .idle, failures := 0 } ∧
          r.bays = s.bays) ∧
        (c ≠ a.target → c = a.committed →
          r.account t.bay = counted ∧
          (a.failures < 2 → r.source .commitRetry = joined (s.source .commitRetry) t.bay ∧ r.bays = s.bays) ∧
          (2 ≤ a.failures → busOf t.bay = n → faultsBay s r t.bay)) ∧
        (a.committed < c → c < a.target →
          r.account t.bay = { counted with committed := c, pending := a.pending - (c - a.committed) } ∧
          (a.failures < 2 → r.source .commitRetry = joined (s.source .commitRetry) t.bay ∧ r.bays = s.bays) ∧
          (2 ≤ a.failures → busOf t.bay = n → faultsBay s r t.bay)) ∧
        (c < a.committed ∨ a.target < c → c ≠ a.target → c ≠ a.committed →
          r.account t.bay = Account.cold ∧ rejectsBay s r t.bay .rollback .rollback)) ∧
    ∀ (c : Instr) (e : ErrorKind), busOf t.bay = n → transactionFails s c n t e →
      ∃ r, exec c s = .next r ∧ faultsBay s r t.bay ∧ r.accounts = s.accounts ∧ r.refill = s.refill ∧
        r.journal = s.journal ∧ r.bus n = idleBus (s.bus n) (s.bus n).restTimer ∧
        r.notice.faults = joinFaults s.notice.faults (recordFor s n t e)

/-! ### The key store -/

/-- R49, R50, R51, R52: the end of a store write. A successful SLOT-LOAD leaves its slot ENABLED in the table and in the store.
A failed or timed-out one leaves it REVOKED with no secret in the table; in the store it is ENABLED with its tag and its secret
if the part that makes it so landed, and REVOKED with no usable secret if not. A SLOT-REVOKE leaves the table, where the slot is
REVOKED already; in the store the slot becomes REVOKED if any part landed, as after a success, and stays as it stood if none
did. The request completes with OK or FAILED and reports the slot and its state. (Stated with no other slot request waiting.)
R49, R179: if others wait, the first of them is then taken, and judged by the table as the write left it: a SLOT-LOAD of an
EMPTY slot with a tag no other slot bears, and a SLOT-REVOKE of a slot that is not REVOKED, begin their write; any other
completes at once (stated with no third one waiting). R48, R175, R137: at the end of the slot table's read the table holds what
the key store holds, the IDENTs that waited for it complete with OK and report it, and the part may leave STARTING. The tag that
a slot revoked while EMPTY bears is a free value (log entry 9). The tag a failed load leaves, and what is left of an EMPTY slot
whose SLOT-REVOKE landed nothing, are the model's reading (log entry 32). -/
def Obligations.KeyStoreEventsSetTheSlots : Prop :=
  (∀ (s : State) (w : SlotWrite), s.digest.writing = some w → (∀ e ∈ s.dispatcher.queue, e.wait ≠ .slotQueued) →
    let failing : Bool → Instr → Prop := fun landed c => c = .storeWriteDone (.failure landed) ∨ c = .storeWriteTimeout landed
    (∀ (tag : BitVec 32) (secret : BitVec 256), w.kind = .load tag secret →
      (∃ t, exec (.storeWriteDone .success) s = .next t ∧
        t.digest = { s.digest with
          slots := s.digest.slots.set w.slot { state := .enabled, tag := some tag, secret := some secret }
          store := s.digest.store.set w.slot { state := .enabled, tag := some tag, secret := some secret }
          writing := none } ∧ t.bays = s.bays ∧ t.accounts = s.accounts) ∧
      ∀ (landed : Bool) (c : Instr), failing landed c →
        ∃ t, exec c s = .next t ∧
        t.digest = { s.digest with
          slots := s.digest.slots.set w.slot { state := .revoked, tag := some tag, secret := none }
          store := s.digest.store.set w.slot (if landed = true then
            { state := .enabled, tag := some tag, secret := some secret } else
            { state := .revoked, tag := some tag, secret := none })
          writing := none } ∧ t.bays = s.bays ∧ t.accounts = s.accounts) ∧
    (w.kind = .revoke →
      ∀ (landed : Bool) (c : Instr), (c = .storeWriteDone .success ∧ landed = true) ∨ failing landed c →
      ∃ t, exec c s = .next t ∧
        t.digest = { s.digest with
          store := if landed = true then
            s.digest.store.set w.slot { s.digest.store[w.slot] with state := .revoked } else s.digest.store
          writing := none } ∧ t.bays = s.bays ∧ t.accounts = s.accounts) ∧
    (tagsUnique s → ∀ e ∈ s.dispatcher.queue, e.tag = w.request →
      ∀ (c : Instr) (r : ResultCode), (c = .storeWriteDone .success ∧ r = .ok) ∨ ((∃ landed, failing landed c) ∧ r = .failed) →
      ∃ t, exec c s = .next t ∧ t.link = (placing s (replyOf e r
        [BitVec.ofNat 8 w.slot.val, BitVec.ofNat 8 (t.slot w.slot).state.code])).link)) ∧
  (∀ (s : State) (w : SlotWrite) (c : Instr) (success : Bool) (first next : QueueEntry) (others : List QueueEntry),
    s.digest.writing = some w → tagsUnique s →
    (c = .storeWriteDone .success ∧ success = true) ∨
      ((∃ landed, c = .storeWriteDone (.failure landed) ∨ c = .storeWriteTimeout landed) ∧ success = false) →
    first ∈ s.dispatcher.queue → first.tag = w.request → next.tag ≠ w.request →
    (s.dispatcher.queue.filter fun e => e.wait = .slotQueued) = next :: others →
    let slots := tableAfter s w success
    let coded : SlotNo → List Byte := fun k => [BitVec.ofNat 8 k.val, BitVec.ofNat 8 slots[k].state.code]
    let ended : Reply := replyOf first (if success then .ok else .failed) (coded w.slot)
    let begins : SlotNo → SlotWriteKind → Prop := fun k kind => ∃ t, exec c s = .next t ∧
      t.digest.writing = some { request := next.tag, slot := k, kind := kind } ∧
      { next with wait := .slotWriting } ∈ t.dispatcher.queue ∧
      t.digest.slots = if kind = .revoke then slots.set k { slots[k] with state := .revoked } else slots
    let completes : ResultCode → List Byte → Prop := fun r payload => others = [] → ∃ t, exec c s = .next t ∧
      t.digest.writing = none ∧ t.digest.slots = slots ∧ { next with wait := .replied } ∈ t.dispatcher.queue ∧
      t.link = (placing (placing s ended) (replyOf next r payload)).link
    (∀ (k : SlotNo) (tag : BitVec 32) (secret : BitVec 256), next.kind = .slotLoad → next.payload = slotLoadBytes k tag secret →
      let borne : Prop := ∃ j : SlotNo, j ≠ k ∧ slots[j].state ≠ .empty ∧ slotTag j slots[j] = tag
      (slots[k].state = .empty → ¬borne → begins k (.load tag secret)) ∧
      (slots[k].state = .empty → borne → completes .badValue (coded k)) ∧
      (slots[k].state ≠ .empty → completes .state (coded k))) ∧
    (∀ k : SlotNo, next.kind = .slotRevoke → next.payload = [BitVec.ofNat 8 k.val] →
      (slots[k].state ≠ .revoked → begins k .revoke) ∧
      (slots[k].state = .revoked → completes .ok (coded k))) ∧
    (∀ (n : Byte) (rest : List Byte), next.kind = .slotLoad ∨ next.kind = .slotRevoke → next.payload = n :: rest →
      3 < n.toNat → completes .badValue [])) ∧
  (∀ s : State, s.digest.slotsRead = false →
    ∃ t, exec .slotTableReadDone s = .next t ∧
      leavesStarting
        { s with
          digest := { s.digest with slots := s.digest.store, slotsRead := true }
          dispatcher := t.dispatcher, link := t.link, free := t.free } t ∧
      (tagsUnique s →
        t.dispatcher = { s.dispatcher with queue := completing .slotRead s.dispatcher.queue } ∧
        places s t ((s.dispatcher.queue.filter fun e => e.wait = .slotRead).map fun e => replyOf e .ok (identReply t))))

/-- R50, R49: a SLOT-LOAD into an EMPTY slot, with an issuer tag no other slot bears, begins its store write and waits for its
end; it changes no slot yet. One into a slot that is not EMPTY is refused with STATE, and one whose tag another slot bears
with BAD_VALUE; both report the slot and its state. The tag such a slot bears if it was revoked while EMPTY is a free value (log
entry 9). R51, R21: a SLOT-REVOKE of a slot that is not REVOKED makes it REVOKED in the table at once and begins its store write.
Every drawable bay of an ENABLED slot is left with its re-challenge WAITING, also one that was RUNNING, and its timer stopped;
every QUARANTINED bay of it is REJECTED, and no bay of another slot changes. One of a slot that is REVOKED completes at once with
OK and changes nothing. A slot number above 3 is refused with BAD_VALUE. (All this is stated with no other slot request waiting or
running.) R49, R179: while a store write runs, a slot request waits in the queue and nothing else changes. That an exchange the
bay has open then stays open, and that the slot keeps its tag, are the model's readings (log entries 20 and 32). -/
def Obligations.SlotRequestsBeginTheStoreWrite : Prop :=
  (∀ (s : State) (tag claimed : Byte) (k : SlotNo) (issuer : BitVec 32) (secret : BitVec 256) (p : List Byte),
    p = slotLoadBytes k issuer secret →
    admits s .slotLoad tag claimed p → s.digest.writing = none → (∀ e ∈ s.dispatcher.queue, e.wait ≠ .slotQueued) →
    let borne : Prop := ∃ j, j ≠ k ∧ (s.slot j).state ≠ .empty ∧ slotTag j (s.slot j) = issuer
    ((s.slot k).state = .empty → ¬borne →
      exec (.slotLoad tag claimed p) s = .next
        { holding s (entryOf s .slotLoad tag claimed p .slotWriting) with
          digest := { s.digest with writing := some { request := tag, slot := k, kind := .load issuer secret } } }) ∧
    ((s.slot k).state ≠ .empty →
      exec (.slotLoad tag claimed p) s = .next (answered s (entryOf s .slotLoad tag claimed p .owner) .state
        [BitVec.ofNat 8 k.val, BitVec.ofNat 8 (s.slot k).state.code])) ∧
    ((s.slot k).state = .empty → borne →
      exec (.slotLoad tag claimed p) s = .next (answered s (entryOf s .slotLoad tag claimed p .owner) .badValue
        [BitVec.ofNat 8 k.val, BitVec.ofNat 8 (s.slot k).state.code]))) ∧
  (∀ (s : State) (tag claimed : Byte) (k : SlotNo), admits s .slotRevoke tag claimed [BitVec.ofNat 8 k.val] →
    s.digest.writing = none → (∀ e ∈ s.dispatcher.queue, e.wait ≠ .slotQueued) →
    ((s.slot k).state = .revoked →
      exec (.slotRevoke tag claimed [BitVec.ofNat 8 k.val]) s = .next
        (answered s (entryOf s .slotRevoke tag claimed [BitVec.ofNat 8 k.val] .owner) .ok [BitVec.ofNat 8 k.val, 0x02#8])) ∧
    ((s.slot k).state ≠ .revoked →
      ∃ t, exec (.slotRevoke tag claimed [BitVec.ofNat 8 k.val]) s = .next t ∧
      t.digest.slots = s.digest.slots.set k { s.slot k with state := .revoked } ∧ t.digest.store = s.digest.store ∧
      t.digest.writing = some { request := tag, slot := k, kind := .revoke } ∧
      (∀ b : Bay, (s.slot k).state = .empty ∨ (s.bay b).slot ≠ some k → t.bay b = s.bay b) ∧
      ∀ b : Bay, (s.slot k).state = .enabled → (s.bay b).slot = some k →
        ((s.bay b).drawable = true → t.context b = s.context b ∧
          t.bay b = { s.bay b with rechallenge := .waiting, rechallengeTimer := none }) ∧
        ((s.bay b).state = .quarantined → (t.bay b).state = .rejected ∧ (t.bay b).rejectReason = .unknownIssuer))) ∧
  ∀ (s : State) (tag claimed : Byte) (kind : RequestKind) (p : List Byte), kind = .slotLoad ∨ kind = .slotRevoke →
    admits s kind tag claimed p →
    (∀ (n : Byte) (rest : List Byte), p = n :: rest → 3 < n.toNat → s.digest.writing = none →
      (∀ e ∈ s.dispatcher.queue, e.wait ≠ .slotQueued) →
      exec (requestOf kind tag claimed p) s = .next (answered s (entryOf s kind tag claimed p .owner) .badValue [])) ∧
    (s.digest.writing.isSome = true →
      exec (requestOf kind tag claimed p) s = .next (holding s (entryOf s kind tag claimed p .slotQueued)))

/-! ### The supply -/

/-- R138, R139, R145: SUPPLY-WARN in NORMAL enters SAVE with the deadline at the budget, and SUPPLY-CRIT in NORMAL with
SUPPLY-WARN deasserted enters it with the deadline at the margin in use, the lesser of margin and budget. Every live METERED
account gains the SAVE demand, the seated serials go to the head of the append set, SAVE_ENTERED is raised, and nothing else
changes. SUPPLY-CRIT in SAVE cuts the deadline to the margin in use. That a copy of a seated serial that is being written is
then stale is the model's own note (log entry 31). -/
def Obligations.SupplyLossEntersSave : Prop :=
  ∀ s : State,
    let save : Nat → Bool → Bool → State := fun ms warn crit =>
      { s with
        supply := { state := .save, deadline := some ms, warn := warn, crit := crit,
                    marginInUse := min s.settings.margin s.settings.budget },
        accounts := s.accounts.map fun a =>
          if a.live = true ∧ a.metering = .metered then { a with drain := { a.drain with save := true } } else a,
        notice := { s.notice with
          sources := s.notice.sources.set NoticeKind.saveEntered.index { s.source .saveEntered with flag := true } },
        journal := if s.journal.mode = .degraded then s.journal else
          { s.journal with
            appendSet := s.seatedSerials ++ s.journal.appendSet.filter fun x => !s.seatedSerials.contains x
            copyStale := s.journal.copyStale || s.seatedSerials.any s.journal.copying } }
    (s.supply.state = .normal →
      exec .supplyWarnAsserted s = .next (save s.settings.budget true s.supply.crit) ∧
      (s.supply.warn = false →
        exec .supplyCritAsserted s = .next (save (min s.settings.margin s.settings.budget) s.supply.warn true))) ∧
    (s.supply.state ≠ .normal →
      exec .supplyWarnAsserted s = .next { s with supply := { s.supply with warn := true } }) ∧
    (∀ ms, s.supply.state = .save → s.supply.deadline = some ms →
      exec .supplyCritAsserted s = .next { s with supply :=
        { s.supply with crit := true, deadline := some (min ms s.supply.marginInUse) } })

/-- R140: the deadline's expiry in SAVE makes the state EXPIRED and raises SAVE_EXPIRED. R141, R23, R5: the deassertion of the
last line in SAVE or EXPIRED returns the part to NORMAL: the deadline stops, the SAVE demands clear, settled bays begin their
identification, and with resume OFF every ADMITTED bay whose re-challenge is IDLE is given one. R151, R150, R149: at the return
the journal becomes DEGRADED if no sector is ERASED; then the erase that compaction holds begins, and with none held compaction
is checked; JOURNAL_DEGRADED is the one notice that may be raised. While the other line is asserted only the level changes.
R137, R3: a line deasserted in STARTING ends STARTING if nothing else holds the part there; in NORMAL only its level changes.
That an erase keeps note of the marker as it stood is the model's own (log entry 28). -/
def Obligations.SupplyReturnEndsSave : Prop :=
  ∀ s : State,
    let released : SupplyLine → Supply := fun l =>
      match l with | .warn => { s.supply with warn := false } | .crit => { s.supply with crit := false }
    (s.supply.state = .save →
      exec .saveDeadlineExpiry s = .next { s with
        supply := { s.supply with state := .expired, deadline := none },
        notice := { s.notice with
          sources := s.notice.sources.set NoticeKind.saveExpired.index { s.source .saveExpired with flag := true } } }) ∧
    (s.supply.state = .save ∨ s.supply.state = .expired →
      (s.supply.crit = true →
        exec (.supplyLineDeasserted .warn) s = .next { s with supply := { s.supply with warn := false } }) ∧
      (s.supply.warn = true →
        exec (.supplyLineDeasserted .crit) s = .next { s with supply := { s.supply with crit := false } }) ∧
      (∀ l : SupplyLine, (l = .warn → s.supply.crit = false) → (l = .crit → s.supply.warn = false) →
        ∃ t, exec (.supplyLineDeasserted l) s = .next t ∧
        t.supply = { s.supply with state := .normal, deadline := none, warn := false, crit := false } ∧
        (∀ b : Bay, t.account b = { s.account b with drain := { (s.account b).drain with save := false } }) ∧
        (∀ b : Bay, t.bay b =
          if (s.bay b).state = .settling ∧ (s.bay b).settled = true then
            { s.bay b with state := .identifying, readAttempts := 0, settleTimer := none, settled := false }
          else if s.settings.resume = false ∧ (s.bay b).state = .admitted ∧ (s.bay b).rechallenge = .idle then
            { s.bay b with rechallenge := .waiting, rechallengeTimer := none }
          else s.bay b) ∧
        (let u : State := { t with journal := s.journal, notice := s.notice }
         let d := if s.journal.erasedCount = 0 ∧ s.journal.mode = .normal then degraded u else u
         (∀ x, s.journal.compaction = .eraseHeld x → t = eraseBegun d x) ∧
         ((∀ x, s.journal.compaction ≠ .eraseHeld x) → compacts d t)) ∧
        t.ports = s.ports ∧ t.buses = s.buses ∧ t.digest = s.digest ∧ t.dispatcher = s.dispatcher ∧ t.refill = s.refill ∧
        t.link = s.link ∧ t.orders = s.orders)) ∧
    ∀ l : SupplyLine,
      (s.supply.state = .starting →
        ∃ t, exec (.supplyLineDeasserted l) s = .next t ∧ leavesStarting { s with supply := released l } t) ∧
      (s.supply.state = .normal → exec (.supplyLineDeasserted l) s = .next { s with supply := released l })

/-! ### The journal -/

/-- R146, R147: in NORMAL while compaction copies nothing, and in SAVE and EXPIRED, the idle writer takes the serial at the head
of the append set and writes its record into the ACTIVE sector if it fits. If it does not fit, that sector becomes FULL. With no
ACTIVE sector, or none left, it opens the lowest-numbered ERASED one with the next sequence number, if R147 allows; if not, the
serial stays at the head. R149, R151: in NORMAL and STARTING, while compaction copies a sector, the writer takes the next copy:
the subjects that have lost their entry are skipped, and a HISTORY record of the next subject's entry as it stands now is
written, or waits for the sector opened for it. A copy that finds no place makes the journal DEGRADED: the append set is
emptied, compaction stops copying, and JOURNAL_DEGRADED is raised. With no subject left that has an entry, the erase of the
sector begins (stated where the append set is empty, or in STARTING; the erase: R150). The writer's taking is a command of its
own (log entry 14). That the numbers of sectors whose headers may not stand count for the next sequence number is the model's
choice (log entry 30). -/
def Obligations.WriterTakesTheHeadOfTheSet : Prop :=
  ∀ s : State, s.journal.writer = .idle → s.journal.mode = .normal →
    (∀ (x : Serial) (rest : List Serial), s.journal.appendSet = x :: rest →
      (s.supply.state = .normal ∧ ∀ y ys, s.journal.compaction ≠ .copying y ys) ∨ s.supply.state = .save ∨
        s.supply.state = .expired →
      ∃ t, exec .writerTakeRecord s = .next t ∧ writes s .appendSet (s.recordOf x)
        (fun u => { u with journal := { u.journal with appendSet := (x :: rest).filter fun z => z != x } }) id t) ∧
    ∀ (y : Sector) (ys : List Serial), s.journal.compaction = .copying y ys →
      s.supply.state = .normal ∨ s.supply.state = .starting →
      (∀ (skipped : List Serial) (x : Serial) (rest : List Serial), ys = skipped ++ x :: rest →
        (∀ z ∈ skipped, s.entry z = none) → (s.entry x).isSome = true →
        ∃ t, exec .writerTakeRecord s = .next t ∧
          writes { s with journal := { s.journal with compaction := .copying y (x :: rest) } }
            .compactionCopy (s.recordOf x) id degraded t) ∧
      ((∀ z ∈ ys, s.entry z = none) → s.journal.appendSet = [] ∨ s.supply.state = .starting →
        exec .writerTakeRecord s = .next (eraseBegun s y))

/-- R146, R149: a record whose write succeeds stands in flash, byte by byte, at the front of the room; the room falls by its size,
the failure count becomes 0, its sector becomes the serial's newest and the writer is idle. Every other byte of flash reads as
before. A compaction copy then takes its serial out of the append set, unless an event has put it there since the copy's write
began (log entry 31), and the next subject is the next copy. After the last one the erase of the sector begins (R150), and in
SAVE and EXPIRED it is held. R147: a header whose write succeeds stands in flash, every other byte of flash reads as before, and
the record that waited for the sector is then written: one of the append set as it was taken, a compaction copy read afresh, and
a copy whose subject has lost its entry is skipped (R149; log entry 31). R149: compaction is checked after the opening, outside
STARTING. That a header's success leaves the failure count is the model's reading (log entry 29). -/
def Obligations.JournalWritesLandInFlash : Prop :=
  (∀ (s : State) (y : Sector) (source : RecordSource) (r : JournalRecord), s.journal.writer = .record y source r →
    s.journal.flash.wf = true →
    ∃ u : State, u = { s with journal := { s.journal with
        flash := u.journal.flash, room := s.journal.room - r.size, failures := 0, writer := .idle
        newest := s.journal.newest.filter (fun e => e.1 != r.serial) ++ [(r.serial, y)] } } ∧
      (∀ k : Nat, k < r.size →
        u.journal.flash.read (4096 * y.val + (4096 - s.journal.room) + k) = r.bytes.getD k 0) ∧
      (∀ a : Nat, a < 4096 * y.val + (4096 - s.journal.room) ∨ 4096 * y.val + (4096 - s.journal.room) + r.size ≤ a →
        u.journal.flash.read a = s.journal.flash.read a) ∧
      (source = .appendSet → exec (.recordWriteDone true) s = .next u) ∧
      (source = .compactionCopy →
        let v : State := if s.journal.copyStale = true then u else
          { u with journal := { u.journal with appendSet := s.journal.appendSet.filter fun z => z != r.serial } }
        ((∀ z ys, s.journal.compaction ≠ .copying z ys) → exec (.recordWriteDone true) s = .next v) ∧
        ∀ (z : Sector) (x : Serial) (rest : List Serial), s.journal.compaction = .copying z (x :: rest) →
          (rest ≠ [] → exec (.recordWriteDone true) s =
            .next { v with journal := { v.journal with compaction := .copying z rest } }) ∧
          (rest = [] →
            (s.supply.state = .normal ∨ s.supply.state = .starting → exec (.recordWriteDone true) s = .next (eraseBegun v z)) ∧
            (s.supply.state = .save ∨ s.supply.state = .expired → exec (.recordWriteDone true) s =
              .next { v with journal := { v.journal with compaction := .eraseHeld z } })))) ∧
  (∀ (s : State) (y : Sector) (source : RecordSource) (r : JournalRecord) (q : Nat), s.journal.writer = .header y source r →
    s.supply.state ≠ .starting → (s.sector y).sequence = some q → q < 2 ^ 32 → s.journal.flash.wf = true →
    ∃ u t : State, exec (.headerWriteDone true) s = .next t ∧ compacts u t ∧
      u = { s with journal := { s.journal with
        flash := u.journal.flash, copyStale := false
        writer := match source with
          | .appendSet => .record y .appendSet r
          | .compactionCopy => if (s.entry r.serial).isSome then .record y .compactionCopy (s.recordOf r.serial) else .idle } } ∧
      u.journal.flash.readBytes (4096 * y.val) 16 = headerBytesOf (BitVec.ofNat 32 q) ∧
      ∀ a : Nat, a < 4096 * y.val ∨ 4096 * y.val + 16 ≤ a → u.journal.flash.read a = s.journal.flash.read a)

/-- R147, R148: a record write or header write that fails, or reports nothing in time, writes a fault record (FLASH_ERROR or
TIMEOUT, in phase write or header, with the count of consecutive failures), makes its sector FULL with no room and its sequence
number kept, puts a serial taken from the append set back at its head, and counts the failure; a compaction copy stays the next
copy, and flash is left as it was. After a failed header compaction is checked, outside STARTING (R149; log entry 42). R148,
R151: the second consecutive failure makes the journal DEGRADED: the append set is emptied, compaction stops copying, and
JOURNAL_DEGRADED is raised. That none of the failed bytes stand in flash is the model's choice (log entry 27), and so is that a
sector whose header write failed keeps its number (log entry 30). -/
def Obligations.FailedWriteFillsTheSector : Prop :=
  ∀ (s : State) (y : Sector) (source : RecordSource) (r : JournalRecord) (c : Instr) (e : ErrorKind), s.journal.mode = .normal →
    let count := s.journal.failures + 1
    let failed : TransactionKind → Phase → Nat → State := fun k p off => { s with
      notice := { s.notice with faults := joinFaults s.notice.faults {
        bay := none, place := .journal, transaction := k, phase := p, error := e, attempt := count, detail := y.val } }
      journal := { s.journal with
        sectors := s.journal.sectors.set y { s.sector y with state := .full, torn := some off }
        appendSet := match source with
          | .appendSet => r.serial :: s.journal.appendSet.filter fun z => z != r.serial
          | .compactionCopy => s.journal.appendSet
        room := 0, failures := count, writer := .idle } }
    (s.journal.writer = .record y source r →
      (c = .recordWriteDone false ∧ e = .flashError) ∨ (c = .recordWriteTimeout ∧ e = .timeout) →
      let u := failed .recordWrite .write (4096 - s.journal.room)
      (s.journal.failures = 0 → exec c s = .next u) ∧ (1 ≤ s.journal.failures → exec c s = .next (degraded u))) ∧
    (s.journal.writer = .header y source r →
      (c = .headerWriteDone false ∧ e = .flashError) ∨ (c = .headerWriteTimeout ∧ e = .timeout) →
      let u := failed .sectorOpen .header 0
      (s.journal.failures = 0 → s.supply.state ≠ .starting → ∃ t, exec c s = .next t ∧ compacts u t) ∧
      (1 ≤ s.journal.failures → exec c s = .next (degraded u)))

/-- R150, R149: an erase that succeeds leaves its sector ERASED and blank, its serials gone from the newest-record map, and
compaction idle if it was erasing that sector; every byte outside the sector reads as before. One that fails or reports
nothing in time leaves its sector FAILED, with a fault record. R149: compaction then starts again if two or fewer sectors are
ERASED, in NORMAL with the journal not DEGRADED: it chooses the oldest FULL sector, or the oldest that needs no copy where the
copies find no room, copies its subjects, and erases it at once if it needs none. A sector's subjects that need a copy are those
with an entry whose newest record lies there, in an order in which its records stand. R150, R151: a failure that leaves fewer
than three usable sectors makes the journal DEGRADED instead. (Stated outside STARTING.) That a FAILED sector keeps its bytes
and its sequence number is the model's choice (log entries 28 and 30). -/
def Obligations.EraseEndsSetTheSector : Prop :=
  (∀ (s : State) (x : Sector), (s.sector x).erasing.isSome = true → s.supply.state ≠ .starting →
    let rest : Journal := { s.journal with
      newest := s.journal.newest.filter fun e => e.2 != x,
      compaction := if s.journal.compaction = .erasing x then .idle else s.journal.compaction }
    (∃ u t : State, exec (.eraseDone x .success) s = .next t ∧ compacts u t ∧
      u = { s with journal := { rest with
        flash := u.journal.flash
        sectors := s.journal.sectors.set x { state := .erased, sequence := none, torn := none, erasing := none } } } ∧
      ∀ a : Nat, u.journal.flash.read a = if a / 4096 = x.val then 0xFF#8 else s.journal.flash.read a) ∧
    ∀ (c : Instr) (e : ErrorKind),
      (c = .eraseDone x (.failure true) ∧ e = .flashError) ∨ (c = .eraseTimeout x true ∧ e = .timeout) →
      let u : State := { s with
        notice := { s.notice with faults := joinFaults s.notice.faults {
          bay := none, place := .journal, transaction := .erase, phase := .erase, error := e, attempt := 1, detail := x.val } }
        journal := { rest with sectors := s.journal.sectors.set x { s.sector x with state := .failed, erasing := none } } }
      (3 ≤ u.journal.usableCount → ∃ t, exec c s = .next t ∧ compacts u t) ∧
      (u.journal.usableCount < 3 →
        (s.journal.mode = .normal → exec c s = .next (degraded u)) ∧ (s.journal.mode = .degraded → exec c s = .next u))) ∧
  ∀ (s : State) (x : Sector),
    (∀ y, y ∈ s.copiesNeeded x ↔ (∃ r ∈ s.journal.recordsIn x, r.serial = y) ∧ newestOf s.journal.newest y = some x ∧
      (s.entry y).isSome = true) ∧
    (s.copiesNeeded x).Nodup ∧ (s.copiesNeeded x).Sublist ((s.journal.recordsIn x).map (·.serial))

/-- 12.3, R144, R153, R181: a record whose fields fit their sizes is read back from its own bytes, whatever follows them. So
is a header (R181). -/
def Obligations.RecordsAndHeadersReadBack : Prop :=
  ((∀ (r : HistoryRecord) (rest : List Byte), r.highWater < 65536 → r.lastSeen < 2 ^ 32 →
    (∀ d, r.debt = some d → d.1 < 65536 ∧ d.2 < 100000000000000) →
    (∀ d, r.doubt = some d → d.base < 65536 ∧ d.amount < 65536) →
    readRecord ((JournalRecord.history r).bytes ++ rest) = some (.history r, (JournalRecord.history r).size)) ∧
  ∀ (x : Serial) (rest : List Byte), readRecord ((JournalRecord.evict x).bytes ++ rest) = some (.evict x, 12)) ∧
  (∀ n : BitVec 32, (headerBytesOf n).length = 16 ∧ readHeader (headerBytesOf n) = some n.toNat)

/-! ### The controller link -/

/-- R165, R166: what the receiver makes of one byte in each of its states; the second CRC byte of a frame whose CRC agrees
delivers the request that its body spells, as the arrival of that request. R165: a gap timeout or a stop-bit error abandons
the frame being received, and nothing else changes; R166: a complete frame whose CRC disagrees is dropped without a reply.
That a request's own command is its arrival is the model's reading (log entry 15). -/
def Obligations.ReceiverTakesEachByteAndDropsBadFrames : Prop :=
  (∀ (s : State) (b : Byte),
    (s.link.receiver = .hunt → exec (.linkByteReceived b) s = .next { s with link :=
      { s.link with receiver := if b = 0xC3#8 then .length else .hunt } }) ∧
    (s.link.receiver = .length → exec (.linkByteReceived b) s = .next { s with link :=
      { s.link with receiver := if 3 ≤ b.toNat ∧ b.toNat ≤ 203 then .body b.toNat [] else .hunt } }) ∧
    (∀ n held, s.link.receiver = .body n held → exec (.linkByteReceived b) s = .next { s with link :=
      { s.link with receiver := if n ≤ held.length + 1 then .check (held ++ [b]) [] else .body n (held ++ [b]) } }) ∧
    (∀ body, s.link.receiver = .check body [] → exec (.linkByteReceived b) s = .next { s with link :=
      { s.link with receiver := .check body [b] } }) ∧
    (∀ body h, s.link.receiver = .check body [h] → crc16 body ≠ h ++ b →
      exec (.linkByteReceived b) s = .next { s with link := { s.link with receiver := .hunt } }) ∧
    ∀ (k : RequestKind) (tag claimed : Byte) (payload : List Byte) (h : Byte),
      s.link.receiver = .check (k.code :: tag :: claimed :: payload) [h] →
      crc16 (k.code :: tag :: claimed :: payload) = h ++ b →
      exec (.linkByteReceived b) s =
        exec (requestOf k tag claimed payload) { s with link := { s.link with receiver := .hunt } }) ∧
  (∀ s : State,
    exec .receiverGapTimeout s = .next { s with link := { s.link with receiver := .hunt } } ∧
    exec .linkStopBitError s = .next { s with link := { s.link with receiver := .hunt } } ∧
    ∀ (body : List Byte) (crc : BitVec 16), crc16 body ≠ crc →
      exec (.frameCrcMismatch body crc) s = .next { s with link := { s.link with receiver := .hunt } })

/-- R165, R166: a frame received byte by byte from HUNT (SYNC, LEN, a body of 3 to 203 bytes and its CRC, high byte first) is
taken as the arrival of the request its body spells. That a request's own command is its arrival is the model's reading (log
entry 15). -/
def Obligations.ReceivedFrameIsDelivered : Prop :=
  ∀ (s : State) (k : RequestKind) (tag claimed : Byte) (payload : List Byte), s.link.receiver = .hunt →
    payload.length ≤ 200 →
    .next (([0xC3#8, BitVec.ofNat 8 (payload.length + 3)] ++ (k.code :: tag :: claimed :: payload) ++
      beBytes 2 (crc16 (k.code :: tag :: claimed :: payload)).toNat).foldl State.receive s) =
      exec (requestOf k tag claimed payload) s

/-- R168, R164, R169: when the last byte of a reply has left the line, the queue entry it completes leaves the queue, the rate
a SET-LINK asked for takes effect (and a partial frame is abandoned if it changes), and the next reply of the transmit list
starts at the rate then in force. -/
def Obligations.ReplySentFreesItsPlace : Prop :=
  ∀ (s : State) (r : Reply) (rate : Nat), s.link.sending = some (r, rate) →
    let after : Nat := r.newRate.getD s.link.rate
    exec .replySent s = .next { s with
      dispatcher := { s.dispatcher with queue :=
        if r.queued = true then s.dispatcher.queue.filter (fun e => e.tag ≠ r.tag) else s.dispatcher.queue }
      link := {
        rate := after
        receiver := if after = s.link.rate then s.link.receiver else .hunt
        sending := s.link.transmit.head?.map fun q => (q, after)
        transmit := s.link.transmit.tail } }

/-- R167, R142: an arriving request is judged in order: queue full is BUSY; a tag in the queue is DUPLICATE_TAG; an effective
level above the kind's is PRIVILEGE; in STARTING a kind other than IDENT and STATUS is STARTING; a wrong fixed length is
BAD_LENGTH. A refused request changes nothing but the replies on the line. R170 (law 11): a request's effective level is the
numerically highest of its claimed level, taken as at most 2, and the two floors; the rule's worked rows. -/
def Obligations.ArrivalsAreJudgedInOrder : Prop :=
  (∀ (s : State) (k : RequestKind) (tag claimed : Byte) (p : List Byte),
    (8 ≤ s.dispatcher.queue.length → exec (requestOf k tag claimed p) s = .next (refusing s k.code tag .busy)) ∧
    (s.dispatcher.queue.length < 8 →
      ((∃ e ∈ s.dispatcher.queue, e.tag = tag) →
        exec (requestOf k tag claimed p) s = .next (refusing s k.code tag .duplicateTag)) ∧
      ((∀ e ∈ s.dispatcher.queue, e.tag ≠ tag) →
        (k.level < effectiveLevel s.dispatcher claimed →
          exec (requestOf k tag claimed p) s = .next (refusing s k.code tag .privilege)) ∧
        (effectiveLevel s.dispatcher claimed ≤ k.level →
          (s.supply.state = .starting → k ≠ .ident → k ≠ .status →
            exec (requestOf k tag claimed p) s = .next (refusing s k.code tag .starting)) ∧
          (∀ n, (s.supply.state ≠ .starting ∨ k = .ident ∨ k = .status) → k.fixedLength = some n → p.length ≠ n →
            exec (requestOf k tag claimed p) s = .next (refusing s k.code tag .badLength)))))) ∧
  ((∀ (d : Dispatcher) (claimed : Byte),
    effectiveLevel d claimed = max (min claimed.toNat 2) (max d.strapFloor d.lockFloor) ∧
    d.strapFloor ≤ effectiveLevel d claimed ∧ d.lockFloor ≤ effectiveLevel d claimed) ∧
  ∀ (d : Dispatcher) (service : Bool),
    (d.strapFloor = strapFloorOf true service → d.lockFloor = 0 → effectiveLevel d 0 = 0) ∧
    (d.strapFloor = strapFloorOf false true → d.lockFloor = 0 → effectiveLevel d 0 = 1) ∧
    (d.strapFloor = strapFloorOf true service → d.lockFloor = 2 → effectiveLevel d 1 = 2) ∧
    (d.strapFloor = strapFloorOf false false → d.lockFloor = 0 → effectiveLevel d 7 = 2))

/-- R167, R169: a request of a kind that is none of the table's is refused with UNKNOWN_KIND, and nothing else changes. R173: a
request that names one bay is refused with BAD_VALUE for a bay number above 11 (for FLUSH, 255 means ALL). R66, R113, R87, R161:
a USAGE of 1 to 8 entries, a LEVEL-SENSE of 1 to 12 pairs, a SET-BANDS of 0 to 4 bands and an ACK-NOTICES of 1 to 21 items are
refused with BAD_LENGTH where the payload is empty, the count lies outside its range or the length disagrees with it, and else,
whole, with BAD_VALUE for one bad element: a bay above 11, a reading or a mode that is none of its three, a band whose low bound
is above its high bound, a code that names no kind, a bay set that names a bay above 11 (in an item of a part kind too: the
model's choice, log entry 47). R163, R88: a FAULTS or a HOLD is refused with BAD_VALUE for a byte that is neither yes nor no. A
refusal changes nothing but the queue and the replies on the line. -/
def Obligations.UnknownKindsAndBaysAreRefused : Prop :=
  (∀ (s : State) (kind tag claimed : Byte) (p : List Byte), (∀ k : RequestKind, k.code ≠ kind) →
    s.dispatcher.queue.length < 8 → (∀ e ∈ s.dispatcher.queue, e.tag ≠ tag) →
    exec (.unknownKindRequest kind tag claimed p) s = .next (refusing s kind tag .unknownKind)) ∧
  ∀ (s : State) (tag claimed : Byte),
    let refuses : RequestKind → List Byte → ResultCode → Prop := fun k p r => admits s k tag claimed p →
      exec (requestOf k tag claimed p) s = .next (answered s (entryOf s k tag claimed p .owner) r [])
    (∀ (k : RequestKind) (n : Byte) (rest : List Byte),
      k ∈ [RequestKind.bayQuery, .flush, .release, .bayReset, .rechallenge, .setClass] →
      11 < n.toNat → (k = .flush → n ≠ 0xFF#8) → refuses k (n :: rest) .badValue) ∧
    (∀ (k : RequestKind) (size lo hi : Nat), listShape k = some (size, lo, hi) →
      refuses k [] .badLength ∧
      (∀ (n : Byte) (rest : List Byte), n.toNat < lo ∨ hi < n.toNat ∨ rest.length ≠ size * n.toNat →
        refuses k (n :: rest) .badLength) ∧
      ∀ (i : Nat) (n : Byte) (before item after : List Byte), before.length = size * i → item.length = size →
        (before ++ item ++ after).length = size * n.toNat → lo ≤ n.toNat → n.toNat ≤ hi → badItem k item →
        refuses k (n :: (before ++ item ++ after)) .badValue) ∧
    ∀ n : Byte, 1 < n.toNat → refuses .faults [n] .badValue ∧ refuses .hold [n] .badValue

/-! ### The requests -/

/-- R175, R176, R177, R136, R160, R163: each query that is taken completes at once with OK (a HISTORY-QUERY of a serial the
table has no entry of, with NO_ENTRY) and its reply, and changes nothing but the queue and the line. An IDENT taken before the
slot table's read has ended waits for it, and changes nothing but the queue. STATUS counts its own request. R163, R161: a
clearing FAULTS reports the queue and empties it. An ACK-NOTICES takes the bays it names out of a bay kind's set, or clears a
part kind's flag, and reports what is still set; every other kind, the enables and the mask stand. The layout of the replies
follows log entries 23 and 24 where 12.1 gives none. -/
def Obligations.QueriesAnswerAndAcknowledgementsClear : Prop :=
  (∀ (s : State) (tag claimed : Byte),
    (admits s .ident tag claimed [] → s.digest.slotsRead = true →
      exec (.ident tag claimed []) s = .next (answered s (entryOf s .ident tag claimed [] .owner) .ok (identReply s))) ∧
    (admits s .ident tag claimed [] → s.digest.slotsRead = false →
      exec (.ident tag claimed []) s = .next (holding s (entryOf s .ident tag claimed [] .slotRead))) ∧
    (admits s .status tag claimed [] →
      exec (.status tag claimed []) s = .next (answered s (entryOf s .status tag claimed [] .owner) .ok
        (statusReply (holding s (entryOf s .status tag claimed [] .owner))))) ∧
    (∀ b : Bay, admits s .bayQuery tag claimed [BitVec.ofNat 8 b.val] →
      exec (.bayQuery tag claimed [BitVec.ofNat 8 b.val]) s = .next
        (answered s (entryOf s .bayQuery tag claimed [BitVec.ofNat 8 b.val] .owner) .ok (bayQueryReply s b))) ∧
    (∀ x : Serial, admits s .historyQuery tag claimed (beBytes 8 x.toNat) →
      exec (.historyQuery tag claimed (beBytes 8 x.toNat)) s = .next
        (match s.entry x with
        | some h => answered s (entryOf s .historyQuery tag claimed (beBytes 8 x.toNat) .owner) .ok (historyReply h)
        | none => answered s (entryOf s .historyQuery tag claimed (beBytes 8 x.toNat) .owner) .noEntry [])) ∧
    (admits s .notices tag claimed [] →
      exec (.notices tag claimed []) s = .next
        (answered s (entryOf s .notices tag claimed [] .owner) .ok (noticesReply s))) ∧
    (admits s .faults tag claimed [0x00#8] →
      exec (.faults tag claimed [0x00#8]) s = .next
        (answered s (entryOf s .faults tag claimed [0x00#8] .owner) .ok (faultsReply s)))) ∧
  (∀ (s : State) (tag claimed : Byte),
    (admits s .faults tag claimed [0x01#8] →
      exec (.faults tag claimed [0x01#8]) s = .next (answered { s with notice := { s.notice with faults := [] } }
        (entryOf s .faults tag claimed [0x01#8] .owner) .ok (faultsReply s))) ∧
    ∀ (k : NoticeKind) (set : BitVec 12) (p : List Byte), p = [0x01#8, BitVec.ofNat 8 k.code] ++ beBytes 2 set.toNat →
      admits s .ackNotices tag claimed p →
      let t := withSource s k (if k.isPart then { s.source k with flag := false }
        else { s.source k with bays := (s.source k).bays &&& ~~~set })
      exec (.ackNotices tag claimed p) s = .next (answered t (entryOf s .ackNotices tag claimed p .owner) .ok (ackReply t)))

/-- R67 to R75, R81, R110: an accounted USAGE entry of a METERED account replaces its residue by the accumulator's remainder,
lays the whole quanta into its room and the rest into overdraw, saturating at 65535, and leaves committed; of an UNMETERED
account it grows the unmetered count. R76, R93, R94: a commit that is then due starts at once if the bay has nothing posted and
nothing in progress and nothing earlier is due (R22): in-flight takes all that is pending, and the ADVANCE is posted. (Stated
while no grant is due on the bay's bus: R28.) No other bay's account changes. R76: with two entries of one bay, a commit that
the first brings due starts between them, and the second's quanta stand behind its in-flight. (Stated for a mode no band
decides.) R81: the entry's own reply carries OK, its quanta, and the committed, pending, allowance, level and overdraw it leaves
(stated with no FLUSH waiting on the bay). R74, R111, R108: of the notices exactly these are raised: OVERDRAW where the overdraw
rises from 0; LEVEL_LOW where the level is at or below the threshold, once; ALLOWANCE_EXHAUSTED where an ADMITTED bay's
allowance falls to 0. An entry of a bay that is not drawable is not accounted, and raises STRAY_USAGE exactly if it carries
drawn ink. -/
def Obligations.UsageEntryIsAccounted : Prop :=
  (∀ (s : State) (tag claimed : Byte) (b : Bay) (small medium large spit : BitVec 32) (purges degrees : Byte) (p : List Byte),
    p = 0x01#8 :: usageEntryBytes b small medium large spit purges degrees →
    admits s .usage tag claimed p →
    ((s.bay b).drawable = true → ∀ c : CalibrationCopy, (s.account b).calibration = some c →
      let acc := (s.account b).residue +
        (small.toNat * c.vS + medium.toNat * c.vM + large.toNat * c.vL + spit.toNat * c.vM) *
          temperatureFactor c.k degrees.toInt + purges.toNat * c.vp * 1000000000
      let q := acc / 100000000000000
      let room := (s.account b).capacity - (s.account b).committed - (s.account b).pending
      ∃ t, exec (.usage tag claimed p) s = .next t ∧ (t.account b).residue = acc % 100000000000000 ∧
        (t.account b).committed = (s.account b).committed ∧
        ((s.account b).metering = .metered →
          ((s.account b).committed + (s.account b).pending ≤ (s.account b).capacity →
            (t.account b).committed + (t.account b).pending ≤ (s.account b).capacity) ∧
          (t.account b).pending = (s.account b).pending + min q room ∧
          (t.account b).overdraw = min ((s.account b).overdraw + (q - room)) 65535 ∧
          (t.account b).unmeteredCount = (s.account b).unmeteredCount) ∧
        ((s.account b).metering = .unmetered →
          (t.account b).pending = (s.account b).pending ∧ (t.account b).overdraw = (s.account b).overdraw ∧
          (t.account b).unmeteredCount = min ((s.account b).unmeteredCount + q) 65535) ∧
        ((∀ e ∈ s.dispatcher.queue, e.wait ≠ .flush b ∧ ∀ os, e.wait ≠ .flushAll os) →
          t.link = (placing s (replyOf (entryOf s .usage tag claimed p .owner) .ok ([0x01#8, 0x00#8] ++ beBytes 2 q ++
            beBytes 2 (t.account b).committed ++ beBytes 2 (t.account b).pending ++ beBytes 2 (t.allowance b) ++
            beBytes 2 (t.account b).level ++ beBytes 2 (t.account b).overdraw))).link) ∧
        (let low : Prop := (s.account b).live = true ∧ (s.account b).metering = .metered ∧ (s.account b).lowNotified = false ∧
          (t.account b).level ≤ s.settings.lowThreshold
        (t.account b).lowNotified = ((s.account b).lowNotified || decide low) ∧
        ∀ k, t.source k =
          if (k = .overdraw ∧ (s.account b).overdraw = 0 ∧ 0 < (t.account b).overdraw) ∨ (k = .levelLow ∧ low) ∨
              (k = .allowanceExhausted ∧ (s.bay b).state = .admitted ∧ 0 < s.allowance b ∧ t.allowance b = 0) then
            joined (s.source k) b else s.source k) ∧
        (∀ d, d ≠ b → t.account d = s.account d) ∧ t.bays = s.bays ∧
        t.digest = s.digest ∧ t.refill = s.refill ∧ t.journal = s.journal ∧ t.supply = s.supply ∧
        ((s.account b).metering = .unmetered ∨ (s.account b).commitState ≠ .idle ∨ (s.port b).posted.isSome = true ∨
            (∃ r, (s.bus (busOf b)).current = some r ∧ r.bay = b) →
          (t.account b).inFlight = (s.account b).inFlight ∧ (t.account b).target = (s.account b).target ∧
          (t.account b).commitState = (s.account b).commitState ∧ t.ports = s.ports ∧ t.buses = s.buses) ∧
        ((s.account b).live = true → (s.account b).metering = .metered → (s.account b).commitState = .idle →
          (s.port b).posted = none → (∀ r, (s.bus (busOf b)).current = some r → r.bay ≠ b) →
          noGrantDue s b → s.markOrders b = [] → (s.bay b).rechallenge ≠ .running →
          let due : Prop := (t.account b).mode ≠ .frozen ∧ 0 < (t.account b).pending ∧
            ((t.account b).mode = .through ∨ s.settings.batch ≤ (t.account b).pending ∨ (t.account b).drain.any = true)
          t.buses = s.buses ∧
          (due → (t.account b).inFlight = (t.account b).pending ∧
            (t.account b).target = (t.account b).committed + (t.account b).pending ∧
            (t.account b).commitState = .advance ∧
            t.ports = s.ports.set b { s.port b with posted := some {
              op := .advance (s.account b).index ((t.account b).committed + (t.account b).pending),
              attempt := (s.account b).failures + 1 } }) ∧
          (¬due → (t.account b).inFlight = (s.account b).inFlight ∧ (t.account b).target = (s.account b).target ∧
            (t.account b).commitState = .idle ∧ t.ports = s.ports))) ∧
    ((s.bay b).drawable = false →
      let t := if 0 < small.toNat ∨ 0 < medium.toNat ∨ 0 < large.toNat ∨ 0 < spit.toNat ∨ 0 < purges.toNat then
          withSource s .strayUsage (joined (s.source .strayUsage) b) else s
      exec (.usage tag claimed p) s = .next (answered t (entryOf s .usage tag claimed p .owner) .ok
        ([0x01#8, 0x21#8] ++ beBytes 2 0 ++ beBytes 2 (s.account b).committed ++ beBytes 2 (s.account b).pending ++
          beBytes 2 0 ++ beBytes 2 (s.account b).level ++ beBytes 2 (s.account b).overdraw)))) ∧
  (∀ (s : State) (tag claimed : Byte) (b : Bay) (small medium large spit : BitVec 32) (purges degrees : Byte)
      (small' medium' large' spit' : BitVec 32) (purges' degrees' : Byte) (p : List Byte) (c : CalibrationCopy),
    p = 0x02#8 :: (usageEntryBytes b small medium large spit purges degrees ++
      usageEntryBytes b small' medium' large' spit' purges' degrees') →
    admits s .usage tag claimed p → (s.bay b).drawable = true → (s.account b).live = true →
    (s.account b).metering = .metered → (s.account b).calibration = some c → (s.account b).commitState = .idle →
    (s.port b).posted = none → (∀ r, (s.bus (busOf b)).current = some r → r.bay ≠ b) → noGrantDue s b →
    s.markOrders b = [] → (s.bay b).rechallenge ≠ .running →
    (s.account b).bands = [] → s.settings.bands = [] → s.settings.hold = false → (s.account b).writeProtect = false →
    s.settings.defaultMode ≠ .frozen → (s.account b).mode ≠ .frozen →
    (s.account b).committed + (s.account b).pending ≤ (s.account b).capacity →
    let acc := (s.account b).residue + usageVolume c small medium large spit purges degrees
    let acc' := acc % 100000000000000 + usageVolume c small' medium' large' spit' purges' degrees'
    let first := (s.account b).pending +
      min (acc / 100000000000000) ((s.account b).capacity - (s.account b).committed - (s.account b).pending)
    0 < first → s.settings.batch ≤ first →
    ∃ t, exec (.usage tag claimed p) s = .next t ∧ (t.account b).inFlight = first ∧
      (t.account b).target = (s.account b).committed + first ∧ (t.account b).commitState = .advance ∧
      (t.account b).pending = first +
        min (acc' / 100000000000000) ((s.account b).capacity - (s.account b).committed - first) ∧
      (t.account b).residue = acc' % 100000000000000 ∧ (t.account b).committed = (s.account b).committed ∧
      (t.port b).posted = some {
        op := .advance (s.account b).index ((s.account b).committed + first), attempt := (s.account b).failures + 1 })

/-- R114, R117, R113: a PRESENT reading of an ADMITTED bay whose METERED account is used up counts, and a LOW reading clears
the count; a DRY reading of a drawable METERED account above 250 per-mille raises LEAK_SUSPECT; the pair reply carries the
bay, the count and the disposition. Nothing else changes. R115, R116: a PRESENT reading that brings the count to the sense
confirm setting is a confirmation. The serial's entry takes the verdict REFILLED, a REFILL order is placed unless one stands,
REFILL is raised, and the bay's verdict becomes REFILLED. Under ACCEPT the account becomes UNMETERED, with its residue, its
counts and its demands at 0. Under REFUSE it closes, and the bay moves to QUARANTINED; a RECHALLENGE that waits on the bay
completes with FAILED, before or after the LEVEL-SENSE's own reply (R169). -/
def Obligations.LevelSensePairsAreDisposed : Prop :=
  ∀ (s : State) (tag claimed : Byte) (b : Bay), (s.account b).live = true → (s.account b).metering = .metered →
    let bay := BitVec.ofNat 8 b.val
    (admits s .levelSense tag claimed [0x01#8, bay, 0x02#8] → (s.bay b).state = .admitted →
      (s.account b).committed = (s.account b).capacity → (s.account b).senseCount + 1 < s.settings.senseConfirm →
      exec (.levelSense tag claimed [0x01#8, bay, 0x02#8]) s = .next (answered
        (withAccount s b { s.account b with senseCount := (s.account b).senseCount + 1 })
        (entryOf s .levelSense tag claimed [0x01#8, bay, 0x02#8] .owner) .ok
        [0x01#8, bay, BitVec.ofNat 8 ((s.account b).senseCount + 1), 0x01#8])) ∧
    (admits s .levelSense tag claimed [0x01#8, bay, 0x01#8] → (s.bay b).state = .admitted →
      (s.account b).committed = (s.account b).capacity → 0 < (s.account b).senseCount →
      exec (.levelSense tag claimed [0x01#8, bay, 0x01#8]) s = .next (answered
        (withAccount s b { s.account b with senseCount := 0 })
        (entryOf s .levelSense tag claimed [0x01#8, bay, 0x01#8] .owner) .ok [0x01#8, bay, 0x00#8, 0x02#8])) ∧
    (admits s .levelSense tag claimed [0x01#8, bay, 0x00#8] → (s.bay b).drawable = true → 250 < (s.account b).level →
      (s.account b).committed ≠ (s.account b).capacity →
      exec (.levelSense tag claimed [0x01#8, bay, 0x00#8]) s = .next (answered
        (withSource s .leakSuspect (joined (s.source .leakSuspect) b))
        (entryOf s .levelSense tag claimed [0x01#8, bay, 0x00#8] .owner) .ok
        [0x01#8, bay, BitVec.ofNat 8 (s.account b).senseCount, 0x04#8])) ∧
    (admits s .levelSense tag claimed [0x01#8, bay, 0x02#8] → (s.bay b).state = .admitted →
      (s.account b).committed = (s.account b).capacity → s.settings.senseConfirm ≤ (s.account b).senseCount + 1 →
      ∀ x, s.serialRead b = some x →
      let e := entryOf s .levelSense tag claimed [0x01#8, bay, 0x02#8] .owner
      ∃ t, exec (.levelSense tag claimed [0x01#8, bay, 0x02#8]) s = .next t ∧
        t.entry x = (s.entry x).map (fun h => { h with lastVerdict := .refilled }) ∧
        t.markOrders b = (if ∃ o ∈ s.markOrders b, o.mark = .refill then s.markOrders b
          else s.markOrders b ++ [{ mark := .refill, attempts := 0 }]) ∧
        t.source .refill = joined (s.source .refill) b ∧
        (∀ d, d ≠ b → t.bay d = s.bay d ∧ t.account d = s.account d ∧ t.markOrders d = s.markOrders d) ∧
        (s.settings.tolerance = .accept →
          t.bay b = { s.bay b with verdict := .refilled } ∧
          t.account b = { s.account b with
            residue := 0, metering := .unmetered, unmeteredCount := 0, senseCount := 0
            drain := { flush := false, release := false, save := false } } ∧
          t.link = (placing s (replyOf e .ok [0x01#8, bay, 0x00#8, 0x03#8])).link) ∧
        (s.settings.tolerance = .refuse →
          t.bay b = { s.bay b with
            state := .quarantined, verdict := .refilled, rejectReason := .none, fetchDue := false, rechallenge := .idle
            rechallengeTimer := none } ∧
          t.account b = Account.cold ∧ t.context b = Context.closed ∧
          let reply := replyOf e .ok [0x01#8, bay, BitVec.ofNat 8 ((s.account b).senseCount + 1), 0x03#8]
          ((∀ q ∈ s.dispatcher.queue, q.wait ≠ .rechallenge b) → t.link = (placing s reply).link) ∧
          (tagsUnique s → ∀ q, (s.dispatcher.queue.filter fun q => q.wait = .rechallenge b) = [q] →
            eitherOrder s t reply (replyOf q .failed
              [bay, 0x05#8, BitVec.ofNat 8 (s.bay b).mismatches, BitVec.ofNat 8 (s.bay b).commFailures]))))

/-- R92: a FLUSH of a drawable METERED bay with quanta pending sets the FLUSH demand and waits; with nothing pending it
completes at once with OK and the pending, as does that of a drawable bay with an UNMETERED account; in FROZEN, or of a bay that
is not drawable, it is refused with STATE. A FLUSH for ALL judges each of the twelve bays so. With no bay to wait on it completes
at once with twelve outcomes, FROZEN for a drawable METERED bay in FROZEN and NOTHING for every other, and with OK exactly if none
is FROZEN. Else it sets the FLUSH demand of each drawable METERED bay that is not FROZEN and has quanta pending, and waits on these
with the other bays' outcomes recorded. That a FLUSH refused at once carries no payload is the model's reading (log entry 34). -/
def Obligations.FlushWaitsForPending : Prop :=
  ∀ (s : State) (tag claimed : Byte),
    (∀ b : Bay,
      let p := [BitVec.ofNat 8 b.val]
      admits s .flush tag claimed p →
      ((s.bay b).drawable = true → (s.account b).metering = .metered → (s.account b).mode ≠ .frozen →
        (0 < (s.account b).pending →
          exec (.flush tag claimed p) s = .next (withAccount (holding s (entryOf s .flush tag claimed p (.flush b))) b
            { s.account b with drain := { (s.account b).drain with flush := true } })) ∧
        ((s.account b).pending = 0 →
          exec (.flush tag claimed p) s = .next (answered s (entryOf s .flush tag claimed p .owner) .ok
            [BitVec.ofNat 8 b.val, 0x00#8, 0x00#8]))) ∧
      ((s.bay b).drawable = true → (s.account b).metering = .unmetered →
        exec (.flush tag claimed p) s = .next (answered s (entryOf s .flush tag claimed p .owner) .ok
          (BitVec.ofNat 8 b.val :: beBytes 2 (s.account b).pending))) ∧
      ((s.bay b).drawable = false ∨ ((s.account b).metering = .metered ∧ (s.account b).mode = .frozen) →
        exec (.flush tag claimed p) s = .next (answered s (entryOf s .flush tag claimed p .owner) .state []))) ∧
    (admits s .flush tag claimed [0xFF#8] →
      let frozen : Bay → Prop := fun b =>
        (s.bay b).drawable = true ∧ (s.account b).metering = .metered ∧ (s.account b).mode = .frozen
      let waits : Bay → Prop := fun b => (s.bay b).drawable = true ∧ (s.account b).metering = .metered ∧
        (s.account b).mode ≠ .frozen ∧ 0 < (s.account b).pending
      ((∀ b, ¬waits b) → ∀ codes : Vector Byte 12, (∀ b : Bay, (frozen b → codes[b] = 0x01#8) ∧ (¬frozen b → codes[b] = 0x00#8)) →
        ((∀ b, ¬frozen b) → exec (.flush tag claimed [0xFF#8]) s =
          .next (answered s (entryOf s .flush tag claimed [0xFF#8] .owner) .ok codes.toList)) ∧
        ((∃ b, frozen b) → exec (.flush tag claimed [0xFF#8]) s =
          .next (answered s (entryOf s .flush tag claimed [0xFF#8] .owner) .failed codes.toList))) ∧
      ((∃ b, waits b) → ∃ (outcomes : Vector (Option FlushOutcome) 12) (accounts : Vector Account 12),
        exec (.flush tag claimed [0xFF#8]) s = .next
          { holding s (entryOf s .flush tag claimed [0xFF#8] (.flushAll outcomes)) with accounts := accounts } ∧
        ∀ b : Bay,
          (waits b → outcomes[b] = none ∧
            accounts[b] = { s.account b with drain := { (s.account b).drain with flush := true } }) ∧
          (¬waits b → accounts[b] = s.account b ∧ (frozen b → outcomes[b] = some .frozen) ∧
            (¬frozen b → outcomes[b] = some .nothing))))

/-- R15, R78, R104, R61: the RELEASE of an ADMITTED bay with a METERED account moves the bay to RELEASING, stops its timer, sets
the RELEASE demand and waits for what is pending; half a quantum of residue or more is rounded to a pending quantum first. A
re-challenge in WAITING returns to IDLE, and the RECHALLENGE joined to it completes with FAILED. With nothing pending and less
than half a quantum the account closes at once, the bay is RELEASED with RELEASED raised, and the request completes with OK. So
does that of an UNMETERED account; a RECHALLENGE that waits on the bay then completes with FAILED. That the two replies, of one
owner, come in either order is the model's reading (log entry 5); so is that the context of a WAITING re-challenge closes, and a
due fetch ends, at the RELEASE (log entry 20). A QUARANTINED bay moves to RELEASED with RELEASED raised, and the request
completes with OK. A RELEASE in RELEASING is refused with IN_PROGRESS, and in any other state with STATE. -/
def Obligations.ReleaseDrainsOrCompletes : Prop :=
  ∀ (s : State) (tag claimed : Byte) (b : Bay),
    let bay : Byte := BitVec.ofNat 8 b.val
    let p := [bay]
    let a := s.account b
    let counts : List Byte := [BitVec.ofNat 8 (s.bay b).mismatches, BitVec.ofNat 8 (s.bay b).commFailures]
    let ok : Reply := replyOf (entryOf s .release tag claimed p .owner) .ok [bay, 0x08#8]
    let released : State → Prop := fun t => (t.bay b).state = .released ∧
      t.source .released = joined (s.source .released) b ∧ (∀ c, c ≠ b → t.bay c = s.bay c ∧ t.account c = s.account c)
    admits s .release tag claimed p →
    ((s.bay b).state = .admitted → a.metering = .metered → 0 < a.pending → a.residue < 50000000000000 →
      ((s.bay b).rechallenge ≠ .waiting →
        exec (.release tag claimed p) s = .next (withAccount
          (withBayRec (holding s (entryOf s .release tag claimed p (.release b))) b
            { s.bay b with state := .releasing, rechallengeTimer := none })
          b { a with drain := { a.drain with release := true } })) ∧
      ((s.bay b).rechallenge = .waiting →
        ∃ t, exec (.release tag claimed p) s = .next t ∧ t.context b = Context.closed ∧
          t.bay b = { s.bay b with state := .releasing, rechallenge := .idle, rechallengeTimer := none, fetchDue := false } ∧
          t.accounts = s.accounts.set b { a with drain := { a.drain with release := true } } ∧
          (tagsUnique s → ∀ q, (s.dispatcher.queue.filter fun q => q.wait = .rechallenge b) = [q] →
            t.link = (placing s (replyOf q .failed ([bay, 0x07#8] ++ counts))).link))) ∧
    ((s.bay b).state = .admitted → a.metering = .metered → 50000000000000 ≤ a.residue →
      a.committed + a.pending < a.capacity →
      ∃ t, exec (.release tag claimed p) s = .next t ∧ (t.bay b).state = .releasing ∧ (t.account b).residue = 0 ∧
        (t.account b).pending = a.pending + 1 ∧ (t.account b).drain.release = true) ∧
    ((s.bay b).state = .admitted →
      a.metering = .unmetered ∨ (a.metering = .metered ∧ a.pending = 0 ∧ a.residue < 50000000000000) →
      ∃ t, exec (.release tag claimed p) s = .next t ∧ released t ∧ t.account b = Account.cold ∧
        (waitingOn s b = [] → t.link = (placing s ok).link) ∧
        (tagsUnique s → ∀ q, q.wait = .rechallenge b → waitingOn s b = [q] → a.metering = .unmetered →
          eitherOrder s t (replyOf q .failed ([bay, 0x08#8] ++ counts)) ok)) ∧
    ((s.bay b).state = .quarantined →
      ∃ t, exec (.release tag claimed p) s = .next t ∧ released t ∧ t.accounts = s.accounts ∧
        t.link = (placing s ok).link) ∧
    ((s.bay b).state = .releasing →
      exec (.release tag claimed p) s = .next (answered s (entryOf s .release tag claimed p .owner) .inProgress [])) ∧
    ((s.bay b).state ≠ .admitted → (s.bay b).state ≠ .quarantined → (s.bay b).state ≠ .releasing →
      exec (.release tag claimed p) s = .next (answered s (entryOf s .release tag claimed p .owner) .state []))

/-- R17: a BAY-RESET of a bay in FAULTED, REJECTED, QUARANTINED or RELEASED, in NORMAL, clears the bay's record but for the
serial and the expected class, withdraws its posted request, closes its context and its account, and begins a fresh
identification; in any other state it is refused with STATE, and during SAVE and EXPIRED with SAVING. R20: a RECHALLENGE of an
ADMITTED bay, in NORMAL, makes an IDLE re-challenge WAITING with its timer stopped, or joins the one that is waiting or
running, and waits for its end; in any other state it is refused with STATE, and during SAVE and EXPIRED with SAVING. -/
def Obligations.BayResetAndRechallengeAreTaken : Prop :=
  (∀ (s : State) (tag claimed : Byte) (b : Bay),
    let p := [BitVec.ofNat 8 b.val]
    admits s .bayReset tag claimed p →
    (s.supply.state = .normal →
      ((s.bay b).state = .faulted ∨ (s.bay b).state = .rejected ∨ (s.bay b).state = .quarantined ∨
          (s.bay b).state = .released →
        ∃ t, exec (.bayReset tag claimed p) s = .next t ∧
          t.bay b = { BayRec.cleared (s.bay b).expectedClass with state := .identifying, serial := (s.bay b).serial } ∧
          t.port b = Port.cleared ∧ t.context b = Context.closed ∧ t.markOrders b = [] ∧
          ((s.account b).live = true → t.account b = Account.cold) ∧
          (∀ c, c ≠ b → t.bay c = s.bay c ∧ t.port c = s.port c ∧ t.context c = s.context c) ∧
          t.notice.faults = s.notice.faults ∧ t.journal.flash = s.journal.flash) ∧
      ((s.bay b).state.held = false →
        exec (.bayReset tag claimed p) s = .next (answered s (entryOf s .bayReset tag claimed p .owner) .state []))) ∧
    (s.supply.state = .save ∨ s.supply.state = .expired →
      exec (.bayReset tag claimed p) s = .next (answered s (entryOf s .bayReset tag claimed p .owner) .saving []))) ∧
  (∀ (s : State) (tag claimed : Byte) (b : Bay),
    let p := [BitVec.ofNat 8 b.val]
    admits s .rechallenge tag claimed p →
    (s.supply.state = .normal →
      ((s.bay b).state = .admitted →
        exec (.rechallenge tag claimed p) s = .next (withBayRec
          (holding s (entryOf s .rechallenge tag claimed p (.rechallenge b))) b
          (if (s.bay b).rechallenge = .idle then { s.bay b with rechallenge := .waiting, rechallengeTimer := none }
           else s.bay b))) ∧
      ((s.bay b).state ≠ .admitted →
        exec (.rechallenge tag claimed p) s = .next
          (answered s (entryOf s .rechallenge tag claimed p .owner) .state []))) ∧
    (s.supply.state = .save ∨ s.supply.state = .expired →
      exec (.rechallenge tag claimed p) s = .next (answered s (entryOf s .rechallenge tag claimed p .owner) .saving [])))

/-- R172, R18, R23, R111, 10.7: a CONFIGURE clamps its value to the setting's bounds, stores it, answers OK or CLAMPED with the
applied value, and, for the settings that are only read later (batch, sense-confirm, budget, margin, resume, a tolerance of
REFUSE), changes nothing else. A tolerance or a resume that is neither value, and an identifier that names no setting, is
refused with BAD_VALUE. A changed interval restarts every running re-challenge timer, or stops every one at 0; one that leaves
0 starts the timer of every ADMITTED bay whose re-challenge is IDLE. A changed low threshold runs the low-level test on every
bay: an account at or below it that has not been reported raises LEVEL_LOW once. R13, R131: a tolerance changed to ACCEPT admits
a QUARANTINED bay with an UNMETERED account that takes the entry's debt as overdraw, or rejects it with CLONE if its serial is
drawn elsewhere. (Stated for one QUARANTINED bay.) That a doubt of the entry is dropped with the debt is the model's choice (log
entry 45). R131 names only the entry's last verdict CLONE; that the rejected bay's own verdict becomes CLONE with it is read from
it (log entry 21). -/
def Obligations.ConfigureClampsAndStores : Prop :=
  ∀ (s : State) (tag claimed : Byte) (v : BitVec 16),
    let request : Byte → List Byte := fun id => id :: beBytes 2 v.toNat
    let done : Byte → Nat → Settings → State → State := fun id w x t =>
      answered { t with dispatcher := { t.dispatcher with settings := x } }
        (entryOf s .configure tag claimed (request id) .owner) (if w = v.toNat then .ok else .clamped) (id :: beBytes 2 w)
    let plain : Byte → Nat → Settings → Prop := fun id w x => admits s .configure tag claimed (request id) →
      exec (.configure tag claimed (request id)) s = .next (done id w x s)
    plain 0x01#8 (max 1 (min 16 v.toNat)) { s.settings with batch := max 1 (min 16 v.toNat) } ∧
    plain 0x06#8 (max 1 (min 8 v.toNat)) { s.settings with senseConfirm := max 1 (min 8 v.toNat) } ∧
    plain 0x07#8 (max 10 (min 500 v.toNat)) { s.settings with budget := max 10 (min 500 v.toNat) } ∧
    plain 0x08#8 (max 5 (min 100 v.toNat)) { s.settings with margin := max 5 (min 100 v.toNat) } ∧
    (v.toNat ≤ 1 → plain 0x09#8 v.toNat { s.settings with resume := decide (v.toNat = 1) }) ∧
    (v.toNat = 1 ∨ (v.toNat = 0 ∧ (s.settings.tolerance = .accept ∨ ∀ b : Bay, (s.bay b).state ≠ .quarantined)) →
      plain 0x03#8 v.toNat { s.settings with tolerance := if v.toNat = 0 then .accept else .refuse }) ∧
    (∀ id : Byte, id = 0 ∨ 9 < id.toNat ∨ ((id = 0x03#8 ∨ id = 0x09#8) ∧ 1 < v.toNat) ∨ (id = 0x02#8 ∧ 2 < v.toNat) →
      admits s .configure tag claimed (request id) →
      exec (.configure tag claimed (request id)) s = .next
        (answered s (entryOf s .configure tag claimed (request id) .owner) .badValue [])) ∧
    (admits s .configure tag claimed (request 0x04#8) →
      let w := if v.toNat = 0 then 0 else max 10 (min 3600 v.toNat)
      exec (.configure tag claimed (request 0x04#8)) s = .next
        (done 0x04#8 w { s.settings with interval := w }
          { s with bays := s.bays.map fun r =>
            if w = s.settings.interval then r
            else if s.settings.interval = 0 then
              if r.state = .admitted ∧ r.rechallenge = .idle then { r with rechallengeTimer := some (w * 1000) } else r
            else if r.rechallengeTimer.isSome = true then
              { r with rechallengeTimer := if w = 0 then none else some (w * 1000) } else r })) ∧
    (admits s .configure tag claimed (request 0x05#8) →
      let w := max 10 (min 500 v.toNat)
      let low : Bay → Prop := fun b => w ≠ s.settings.lowThreshold ∧ (s.bay b).drawable = true ∧ (s.account b).live = true ∧
        (s.account b).metering = .metered ∧ (s.account b).lowNotified = false ∧ (s.account b).level ≤ w
      ∃ t, exec (.configure tag claimed (request 0x05#8)) s = .next t ∧
        t.settings = { s.settings with lowThreshold := w } ∧
        t.link = (done 0x05#8 w { s.settings with lowThreshold := w } s).link ∧ t.bays = s.bays ∧ t.ports = s.ports ∧
        ∀ b : Bay, (low b → t.account b = { s.account b with lowNotified := true } ∧
            (t.source .levelLow).bays.getLsbD b.val = true) ∧
          (¬low b → t.account b = s.account b ∧
            (t.source .levelLow).bays.getLsbD b.val = (s.source .levelLow).bays.getLsbD b.val)) ∧
    (admits s .configure tag claimed (request 0x03#8) → v.toNat = 0 → s.settings.tolerance = .refuse →
      ∀ (b : Bay) (i : IdentityPage) (c : CalibrationPage) (u : UsagePage) (e : HistoryEntry),
        (s.bay b).state = .quarantined → (∀ d, (s.bay d).state = .quarantined → d = b) →
        (s.bay b).identityPage = some i → (s.bay b).calibrationPage = some c → (s.bay b).usagePage = some u →
        s.entry i.serial = some e → (s.account b).live = false →
        let elsewhere : Prop := ∃ d, d ≠ b ∧ (s.bay d).drawable = true ∧ s.serialRead d = some i.serial
        ∃ t, exec (.configure tag claimed (request 0x03#8)) s = .next t ∧
          t.settings = { s.settings with tolerance := .accept } ∧
          (∀ d, d ≠ b → t.bay d = s.bay d ∧ t.account d = s.account d) ∧
          (¬elsewhere →
            t.bay b = { s.bay b with
              state := .admitted, rechallenge := .idle
              rechallengeTimer := if s.settings.interval = 0 then none else some (s.settings.interval * 1000) } ∧
            t.source .admitted = joined (s.source .admitted) b ∧
            t.entry i.serial = some { e with debtQuanta := 0, debtResidue := 0, doubt := none } ∧
            (t.account b).live = true ∧ (t.account b).metering = .unmetered ∧ (t.account b).committed = u.counter ∧
            (t.account b).pending = 0 ∧ (t.account b).residue = 0 ∧ (t.account b).overdraw = min e.debtQuanta 65535 ∧
            (t.account b).unmeteredCount = 0) ∧
          (elsewhere →
            (t.bay b).state = .rejected ∧ (t.bay b).rejectReason = .clone ∧ (t.bay b).verdict = .clone ∧
            t.source .clone = joined (s.source .clone) b ∧ t.account b = s.account b ∧
            t.entry i.serial = some { e with lastVerdict := .clone }))

/-- R87, R88, R90: after a taken SET-BANDS of 0 to 4 bands, a HOLD that changes HOLD, and a CONFIGURE that changes the default
mode, the setting has its new value and every live account's mode is its effective mode under it; no account's amounts change,
and no bay changes. -/
def Obligations.ModeSettingsRecomputeEveryMode : Prop :=
  ∀ (s : State) (c : Instr) (tag claimed : Byte) (x : Settings),
    ((∃ (bands : List PrinterBand) (p : List Byte), bands.length ≤ 4 ∧ (∀ d ∈ bands, d.low ≤ d.high ∧ d.high < 65536) ∧
        p = BitVec.ofNat 8 bands.length ::
          bands.flatMap (fun d => beBytes 2 d.low ++ beBytes 2 d.high ++ [BitVec.ofNat 8 d.mode.rank]) ∧
        admits s .setBands tag claimed p ∧ c = .setBands tag claimed p ∧ x = { s.settings with bands := bands }) ∨
      (∃ v : Bool, admits s .hold tag claimed [if v then 0x01#8 else 0x00#8] ∧
        c = .hold tag claimed [if v then 0x01#8 else 0x00#8] ∧ v ≠ s.settings.hold ∧ x = { s.settings with hold := v }) ∨
      (∃ m : Mode, admits s .configure tag claimed [0x02#8, 0x00#8, BitVec.ofNat 8 m.rank] ∧
        c = .configure tag claimed [0x02#8, 0x00#8, BitVec.ofNat 8 m.rank] ∧ m ≠ s.settings.defaultMode ∧
        x = { s.settings with defaultMode := m })) →
    ∃ t, exec c s = .next t ∧ t.settings = x ∧
      (∀ b : Bay, (s.account b).live = true → (t.account b).mode = effectiveMode x (s.account b)) ∧
      (∀ b : Bay, (s.account b).live = false → t.account b = s.account b) ∧
      (∀ b : Bay, (t.account b).committed = (s.account b).committed ∧ (t.account b).pending = (s.account b).pending ∧
        (t.account b).inFlight = (s.account b).inFlight ∧ (t.account b).residue = (s.account b).residue) ∧
      t.bays = s.bays ∧ t.ports = s.ports ∧ t.journal = s.journal

/-- R2: a SET-CLASS of a VACANT bay sets its expected class and completes with OK; in any other state it is refused with
BAY_OCCUPIED. R159: a SET-MASK sets the mask, at most 7, and the enables, those of the priority-7 kinds forced on. R164: a
SET-LINK applies the highest supported rate at or below the one requested, after its reply. R171: a LOCK-LEVEL raises the lock
floor to its level, never lowers it, and above level 2 is refused with BAD_VALUE. Nothing else changes. -/
def Obligations.SettingsRequestsSetTheirField : Prop :=
  ∀ (s : State) (tag claimed : Byte),
    (∀ (b : Bay) (c : BitVec 16),
      let p := BitVec.ofNat 8 b.val :: beBytes 2 c.toNat
      admits s .setClass tag claimed p →
      ((s.bay b).state = .vacant → exec (.setClass tag claimed p) s = .next
        (answered (withBayRec s b { s.bay b with expectedClass := c }) (entryOf s .setClass tag claimed p .owner) .ok p)) ∧
      ((s.bay b).state ≠ .vacant → exec (.setClass tag claimed p) s = .next
        (answered s (entryOf s .setClass tag claimed p .owner) .bayOccupied []))) ∧
    (∀ (level : Byte) (enables : BitVec 21),
      let p := level :: beBytes 3 enables.toNat
      let applied := enables ||| 3#21
      admits s .setMask tag claimed p → exec (.setMask tag claimed p) s = .next
        (answered { s with notice := { s.notice with mask := min level.toNat 7, enables := applied } }
          (entryOf s .setMask tag claimed p .owner) (if level.toNat ≤ 7 ∧ applied = enables then .ok else .clamped)
          (BitVec.ofNat 8 (min level.toNat 7) :: beBytes 3 applied.toNat))) ∧
    (∀ rate : BitVec 32,
      let p := beBytes 4 rate.toNat
      let applied := if 921600 ≤ rate.toNat then 921600 else if 460800 ≤ rate.toNat then 460800
        else if 230400 ≤ rate.toNat then 230400 else if 115200 ≤ rate.toNat then 115200 else 57600
      admits s .setLink tag claimed p → exec (.setLink tag claimed p) s = .next
        (placing (holding s (entryOf s .setLink tag claimed p .replied))
          { kind := 0xA5#8, tag := tag, result := if applied = rate.toNat then .ok else .clamped,
            payload := beBytes 4 applied, queued := true, newRate := some applied })) ∧
    ∀ level : Byte, admits s .lockLevel tag claimed [level] →
      (level.toNat ≤ 2 → exec (.lockLevel tag claimed [level]) s = .next
        (answered { s with dispatcher := { s.dispatcher with lockFloor := max s.dispatcher.lockFloor level.toNat } }
          (entryOf s .lockLevel tag claimed [level] .owner) .ok [BitVec.ofNat 8 (max s.dispatcher.lockFloor level.toNat)])) ∧
      (2 < level.toNat → exec (.lockLevel tag claimed [level]) s = .next
        (answered s (entryOf s .lockLevel tag claimed [level] .owner) .badValue []))

/-! ### Computed values -/

/-- R68: stage 1 is exact; every product is at most 42,949,672,950,000 vu and the raw volume at most four times that. -/
def Obligations.RawVolumeIsExact : Prop :=
  (∀ (c : CalibrationCopy) (e : UsageEntry),
    rawVolume c e = e.small * c.vS + e.medium * c.vM + e.large * c.vL + e.spit * c.vM) ∧
  (∀ (c : CalibrationCopy) (e : UsageEntry), c.vS ≤ 10000 → c.vM ≤ 10000 → c.vL ≤ 10000 →
    e.small ≤ 4294967295 → e.medium ≤ 4294967295 → e.large ≤ 4294967295 → e.spit ≤ 4294967295 →
    e.small * c.vS ≤ 42949672950000 ∧ e.medium * c.vM ≤ 42949672950000 ∧ e.large * c.vL ≤ 42949672950000 ∧
      e.spit * c.vM ≤ 42949672950000 ∧ rawVolume c e ≤ 171798691800000) ∧
  ∃ (c : CalibrationCopy) (e : UsageEntry), c.vS = 10000 ∧ c.vM = 10000 ∧ c.vL = 10000 ∧ e.small = 4294967295 ∧
    e.medium = 4294967295 ∧ e.large = 4294967295 ∧ e.spit = 4294967295 ∧ rawVolume c e = 171798691800000

/-- R69: the temperature factor: 10000 for no temperature; otherwise 10000 + k·(Tc − 25), Tc being T held within 10 to 60,
held within 8000 to 12000. With k within −100 to +100 the unclamped factor lies between 6500 and 13500, and the second bound
acts only at the hot end. One factor applies to every drop, and none to the purge volume. The rule's six rows. -/
def Obligations.TemperatureFactorIsClamped : Prop :=
  (∀ k : Int, temperatureFactor k (-128) = 10000) ∧
  (∀ k t : Int, t ≠ -128 →
    (temperatureFactor k t : Int) = max 8000 (min 12000 (10000 + k * (max 10 (min 60 t) - 25)))) ∧
  (∀ k t : Int, -100 ≤ k → k ≤ 100 →
    let unclamped := 10000 + k * (max 10 (min 60 t) - 25)
    6500 ≤ unclamped ∧ unclamped ≤ 13500 ∧ (unclamped < 8000 ∨ 12000 < unclamped → 25 < t ∧ (k ≤ -58 ∨ 58 ≤ k))) ∧
  (∀ (c : CalibrationCopy) (e : UsageEntry), correctedVolume c e = rawVolume c e * temperatureFactor c.k e.temperature) ∧
  (∀ (c : CalibrationCopy) (e : UsageEntry) (t : Int), purgeVolume c { e with temperature := t } = purgeVolume c e) ∧
  temperatureFactor 40 41 = 10640 ∧ temperatureFactor 100 60 = 12000 ∧ temperatureFactor 100 10 = 8500 ∧
  temperatureFactor (-100) 60 = 8000 ∧ temperatureFactor (-100) 10 = 11500

/-- R70: stage 3 is the product of stages 1 and 2, with no division; its largest value is 2,061,584,301,600,000,000 fu, below
2⁶³. -/
def Obligations.CorrectedVolumeIsExact : Prop :=
  (∀ (c : CalibrationCopy) (e : UsageEntry), correctedVolume c e = rawVolume c e * temperatureFactor c.k e.temperature) ∧
  (∀ (c : CalibrationCopy) (e : UsageEntry), rawVolume c e ≤ 171798691800000 →
    correctedVolume c e ≤ 171798691800000 * 12000 ∧ correctedVolume c e < 2 ^ 63) ∧
  171798691800000 * 12000 = 2061584301600000000 ∧
  ∃ (c : CalibrationCopy) (e : UsageEntry), c.k = 100 ∧ e.temperature = 60 ∧ correctedVolume c e = 2061584301600000000

/-- R71: stage 4 is purge events times Vp times 10⁹, with no temperature factor; its largest value is 16,711,425,000,000,000
fu, and a Vp of 0 charges nothing. -/
def Obligations.PurgeVolumeIsExact : Prop :=
  (∀ (c : CalibrationCopy) (e : UsageEntry), purgeVolume c e = e.purges * c.vp * 10 ^ 9) ∧
  (∀ (c : CalibrationCopy) (e : UsageEntry), e.purges ≤ 255 → c.vp ≤ 65535 → purgeVolume c e ≤ 16711425000000000) ∧
  (∀ (c : CalibrationCopy) (e f : UsageEntry), e.purges = f.purges → purgeVolume c e = purgeVolume c f) ∧
  (∃ (c : CalibrationCopy) (e : UsageEntry), e.purges = 255 ∧ c.vp = 65535 ∧ purgeVolume c e = 16711425000000000) ∧
  ∀ (c : CalibrationCopy) (e : UsageEntry), c.vp = 0 → purgeVolume c e = 0

/-- R72: stage 5 is the exact sum of the residue, the corrected volume and the purge volume; with the residue below a quantum
it is at most 2,078,395,726,599,999,999 fu. -/
def Obligations.AccumulatorIsExact : Prop :=
  (∀ (r : Nat) (c : CalibrationCopy) (e : UsageEntry),
    accumulator r c e = r + correctedVolume c e + purgeVolume c e) ∧
  ∀ (r : Nat) (c : CalibrationCopy) (e : UsageEntry), r < 100000000000000 → c.vS ≤ 10000 → c.vM ≤ 10000 → c.vL ≤ 10000 →
    c.vp ≤ 65535 → e.small ≤ 4294967295 → e.medium ≤ 4294967295 → e.large ≤ 4294967295 → e.spit ≤ 4294967295 →
    e.purges ≤ 255 → accumulator r c e ≤ 2078395726599999999

/-- R80, R105, R106 (law 8): the allowance of each row of the rule's table: 0 unless the bay is ADMITTED; 65535 with an
UNMETERED account; the remaining ink of a METERED one, in FROZEN at most what leaves 64 quanta pending. It never exceeds the
remaining ink of a METERED account, and a METERED account's 65535 is its remaining ink. -/
def Obligations.AllowanceFollowsTheTable : Prop :=
  ∀ (s : State) (b : Bay),
    ((s.bay b).state = .admitted → (s.account b).metering = .metered → (s.account b).mode ≠ .frozen →
      s.allowance b = (s.account b).capacity - (s.account b).committed - (s.account b).pending) ∧
    ((s.bay b).state = .admitted → (s.account b).metering = .metered → (s.account b).mode = .frozen →
      s.allowance b = min ((s.account b).capacity - (s.account b).committed - (s.account b).pending)
        (max 0 (64 - (s.account b).pending))) ∧
    ((s.bay b).state = .admitted → (s.account b).metering = .unmetered → s.allowance b = 65535) ∧
    ((s.bay b).state ≠ .admitted → s.allowance b = 0) ∧ law8 s

/-- R89: HOLD or write-protect force FROZEN; otherwise the mode is the default mode if no band covers the account, and else
the mode of a band that covers it, which no covering band's mode is stricter than. That an UNMETERED account's level lies
above every bound is the model's reading (log entry 26). -/
def Obligations.EffectiveModeIsTheStrictest : Prop :=
  ∀ (x : Settings) (a : Account),
    let covering : List Mode := (a.bands.filter fun t => decide (a.level ≤ t.bound)).map (·.mode) ++
      (x.bands.filter fun p => decide (p.low ≤ a.remaining) && decide (a.remaining ≤ p.high)).map (·.mode)
    (x.hold = true ∨ a.writeProtect = true → effectiveMode x a = .frozen) ∧
    (x.hold = false → a.writeProtect = false →
      (covering = [] → effectiveMode x a = x.defaultMode) ∧
      (covering ≠ [] → effectiveMode x a ∈ covering ∧ ∀ m ∈ covering, m.rank ≤ (effectiveMode x a).rank))

/-- R126: the verdict's checks in order: CLONE for a serial drawn elsewhere or a retired entry whose token shows no SPENT
mark, ROLLBACK for a counter below the high-water, REFILLED for a mark, GENUINE otherwise. R58: an exchange is judged in this
order: issuer no longer enabled, communication failure, match, mismatch. -/
def Obligations.JudgmentsRunInOrder : Prop :=
  (∀ (s : State) (b : Bay) (x : Serial) (u : UsagePage) (e : HistoryEntry), s.entry x = some e →
    let elsewhere : Prop := ∃ c : Bay, c ≠ b ∧ (s.bay c).drawable = true ∧ s.serialRead c = some x
    let impostor : Prop := e.retired = true ∧ u.spent = false
    (s.verdict b x u = .clone ↔ elsewhere ∨ impostor) ∧
    (s.verdict b x u = .rollback ↔ ¬elsewhere ∧ ¬impostor ∧ u.counter < e.highWater) ∧
    (s.verdict b x u = .refilled ↔ ¬elsewhere ∧ ¬impostor ∧ e.highWater ≤ u.counter ∧
      (u.spent = true ∨ u.refill = true)) ∧
    (s.verdict b x u = .genuine ↔ ¬elsewhere ∧ ¬impostor ∧ e.highWater ≤ u.counter ∧ u.spent = false ∧ u.refill = false)) ∧
  (∀ (c : Context) (enabled : Bool),
    (c.judge enabled = .noLongerEnabled ↔ enabled = false ∨ c.expected = .withheld) ∧
    (c.judge enabled = .communication ↔ enabled = true ∧ c.expected ≠ .withheld ∧ c.endCause ≠ .none) ∧
    (c.judge enabled = .agree ↔ enabled = true ∧ c.endCause = .none ∧
      ∃ a, c.expected = .present a ∧ c.tokenAnswer = some a))

/-- R158, R156, R157: ATTN is asserted exactly while a pending kind's priority is above the mask level or a priority-7 kind's
source is set. -/
def Obligations.AttnFollowsTheMask : Prop :=
  ∀ s : State, s.attn = true ↔
    (∃ k : NoticeKind, s.sourceSet k = true ∧ s.enabled k = true ∧ s.notice.mask < k.priority) ∨
    ∃ k : NoticeKind, k.priority = 7 ∧ s.sourceSet k = true

/-! ### The end of an exchange -/

/-- R57 to R60: the event that brings the second of an exchange's two answers ends it: its context closes, and it is judged.
With its slot no longer ENABLED the bay is REJECTED with UNKNOWN_ISSUER. A mismatch rejects the bay with AUTH_FAILED: in an
admission at once, in a re-challenge at the second. A match ends a re-challenge: it returns to IDLE, and an ADMITTED bay's
timer starts anew. R11, R127: a match of an admission asks for the verdict, which the bay and the entry record with the page's
counter and marks. R83, R128, R77: GENUINE admits the bay with a METERED account that takes the entry's debt, its mode the
effective one. R129: REFILLED raises REFILL and places a REFILL order unless the mark is set or one stands; under ACCEPT it
admits the bay with an UNMETERED account that takes the debt quanta as overdraw, under REFUSE it quarantines the bay and leaves
the debt. R130: CLONE and ROLLBACK reject the bay. No other bay's record changes. (Stated for an event that places the engine's
answer with no other job queued, or the token's.) That a doubt of the entry is dropped with the debt is the model's choice (log
entry 45). -/
def Obligations.ExchangeOutcomesMoveTheBay : Prop :=
  ∀ (s : State) (c : Instr) (b : Bay) (k : SlotNo) (token expected : BitVec 128), exchangeEnds s c b token expected →
    (s.context b).slot = some k →
    let rejected : RejectReason → NoticeKind → State → Prop := fun why notice t =>
      (t.bay b).state = .rejected ∧ (t.bay b).rejectReason = why ∧ (t.bay b).rechallenge = .idle ∧
        (t.bay b).rechallengeTimer = none ∧ ((s.account b).live = true → t.account b = Account.cold) ∧
        t.source notice = joined (s.source notice) b
    let timer : Option Nat := if s.settings.interval = 0 then none else some (s.settings.interval * 1000)
    ∃ t, exec c s = .next t ∧ t.context b = Context.closed ∧ (∀ d, d ≠ b → t.bay d = s.bay d) ∧
      ((s.slot k).state ≠ .enabled → (s.context b).kind.isSome = true → rejected .unknownIssuer .rejectedOther t) ∧
      ((s.slot k).state = .enabled → token ≠ expected →
        ((s.context b).kind = some .admission → rejected .authFailed .authFailed t ∧ (t.bay b).mismatches = 1) ∧
        ((s.context b).kind = some .rechallenge →
          ((s.bay b).mismatches = 0 →
            t.bay b = { s.bay b with mismatches := 1, fetchDue := false } ∧ t.accounts = s.accounts ∧ t.refill = s.refill) ∧
          (0 < (s.bay b).mismatches →
            rejected .authFailed .authFailed t ∧ (t.bay b).mismatches = (s.bay b).mismatches + 1))) ∧
      ((s.slot k).state = .enabled → token = expected →
        ((s.context b).kind = some .rechallenge →
          t.bay b = { s.bay b with
            rechallenge := .idle, fetchDue := false
            rechallengeTimer := if (s.bay b).state = .admitted then timer else (s.bay b).rechallengeTimer } ∧
          t.accounts = s.accounts ∧ t.refill = s.refill ∧
          (tagsUnique s → t.dispatcher.queue = completing (.rechallenge b) s.dispatcher.queue)) ∧
        ((s.context b).kind = some .admission →
          ∀ (i : IdentityPage) (p : CalibrationPage) (u : UsagePage) (e : HistoryEntry),
            (s.bay b).identityPage = some i → (s.bay b).calibrationPage = some p → (s.bay b).usagePage = some u →
            s.entry i.serial = some e → e.debtResidue < 100000000000000 →
            let v := s.verdict b i.serial u
            let seen : HistoryEntry := { e with
              highWater := max e.highWater u.counter, lastVerdict := v
              marks := { spent := e.marks.spent || u.spent, refill := e.marks.refill || u.refill } }
            let settled : HistoryEntry := { seen with debtQuanta := 0, debtResidue := 0, doubt := none }
            let room := i.capacity - u.counter
            let account : Account := { Account.cold with
              capacity := i.capacity, committed := u.counter, live := true, index := u.index, bands := p.bands
              writeProtect := u.writeProtect
              calibration := some {
                vS := max 50 (min 10000 p.vS), vM := max 50 (min 10000 p.vM), vL := max 50 (min 10000 p.vL)
                k := max (-100) (min 100 p.k), vp := p.vp } }
            let admitted : BayRec := { s.bay b with
              state := .admitted, verdict := v, rechallenge := .idle, rechallengeTimer := timer, fetchDue := false }
            (v = .genuine →
              t.bay b = admitted ∧ t.source .admitted = joined (s.source .admitted) b ∧ t.entry i.serial = some settled ∧
              (∀ d, d ≠ b → t.account d = s.account d) ∧
              ∃ mode low, mode = effectiveMode s.settings (t.account b) ∧
                t.account b = { account with
                  residue := e.debtResidue, pending := min e.debtQuanta room, overdraw := min (e.debtQuanta - room) 65535
                  mode := mode, lowNotified := low
                  drain := { flush := false, release := false
                             save := decide (s.supply.state = .save ∨ s.supply.state = .expired) } }) ∧
            (v = .refilled →
              t.source .refill = joined (s.source .refill) b ∧ (∀ d, d ≠ b → t.account d = s.account d) ∧
              t.markOrders b = (if u.refill = true ∨ ∃ o ∈ s.markOrders b, o.mark = .refill then s.markOrders b
                else s.markOrders b ++ [{ mark := .refill, attempts := 0 }]) ∧
              (s.settings.tolerance = .accept →
                t.bay b = admitted ∧ t.source .admitted = joined (s.source .admitted) b ∧ t.entry i.serial = some settled ∧
                ∃ mode, mode = effectiveMode s.settings (t.account b) ∧
                  t.account b = { account with metering := .unmetered, overdraw := min e.debtQuanta 65535, mode := mode }) ∧
              (s.settings.tolerance = .refuse →
                t.bay b = { s.bay b with
                  state := .quarantined, verdict := .refilled, rejectReason := .none, rechallenge := .idle
                  rechallengeTimer := none, fetchDue := false } ∧
                t.entry i.serial = some seen ∧ t.account b = s.account b)) ∧
            (v = .clone → rejected .clone .clone t ∧ (t.bay b).verdict = .clone ∧
              ((s.account b).live = false → t.entry i.serial = some seen)) ∧
            (v = .rollback → rejected .rollback .rollback t ∧ (t.bay b).verdict = .rollback ∧
              ((s.account b).live = false → t.entry i.serial = some seen))))

end
end

