-- ==== Sys2Proof/Laws/Bytes.lean ====
section
/-! SUPPORT. Byte order, said once: a number's bytes have the length asked for and spell it back, modulo what that many bytes can
hold, and a field is read back from among the bytes around it. -/

namespace Sys2Proof.Machine

@[simp] theorem length_beBytes (n v : Nat) : (beBytes n v).length = n := by
  induction n with
  | zero => rfl
  | succ n ih => simp [beBytes, ih]

@[simp] theorem length_leBytes (n v : Nat) : (leBytes n v).length = n := by simp [leBytes]

theorem foldl_beNat (bs : List Byte) (a : Nat) :
    bs.foldl (fun n b => n * 256 + b.toNat) a = a * 256 ^ bs.length + beNat bs := by
  unfold beNat
  induction bs generalizing a with
  | nil => simp
  | cons b bs ih =>
    rw [List.foldl_cons, ih, List.foldl_cons, ih (0 * 256 + b.toNat), List.length_cons, Nat.pow_succ]
    ring

theorem beNat_append (as bs : List Byte) : beNat (as ++ bs) = beNat as * 256 ^ bs.length + beNat bs := by
  conv => lhs; unfold beNat
  rw [List.foldl_append, foldl_beNat]; rfl

theorem beNat_cons (b : Byte) (bs : List Byte) : beNat (b :: bs) = b.toNat * 256 ^ bs.length + beNat bs := by
  have := beNat_append [b] bs
  simpa [beNat] using this

/-- A number's bytes spell it back, modulo what they can hold. -/
theorem beNat_beBytes (n v : Nat) : beNat (beBytes n v) = v % 256 ^ n := by
  induction n with
  | zero => simp [beBytes, beNat, Nat.mod_one]
  | succ n ih =>
    rw [beBytes, beNat_cons, length_beBytes, ih, BitVec.toNat_ofNat, Nat.pow_succ 256 n, Nat.mod_mul, Nat.mul_comm,
      Nat.add_comm]

/-- A number that fits its bytes is spelled back. -/
theorem beNat_beBytes_of_lt {n v : Nat} (h : v < 256 ^ n) : beNat (beBytes n v) = v := by
  rw [beNat_beBytes, Nat.mod_eq_of_lt h]

theorem leNat_leBytes (n v : Nat) : leNat (leBytes n v) = v % 256 ^ n := by
  rw [leNat, leBytes, List.reverse_reverse, beNat_beBytes]

theorem leNat_leBytes_of_lt {n v : Nat} (h : v < 256 ^ n) : leNat (leBytes n v) = v := by
  rw [leNat_leBytes, Nat.mod_eq_of_lt h]

/-- A field stands where the bytes before it end. -/
theorem slice_field (as bs cs : List Byte) (off n : Nat) (ha : as.length = off) (hb : bs.length = n) :
    slice (as ++ (bs ++ cs)) off n = bs := by
  subst ha; subst hb
  simp [slice]

theorem slice_last (as bs : List Byte) (off n : Nat) (ha : as.length = off) (hb : bs.length = n) :
    slice (as ++ bs) off n = bs := by simpa using slice_field as bs [] off n ha hb

/-- The bytes of a bit vector that they hold whole spell it back. -/
theorem ofNat_beNat_beBytes {w n : Nat} (h : 2 ^ w ≤ 256 ^ n) (x : BitVec w) :
    BitVec.ofNat w (beNat (beBytes n x.toNat)) = x := by
  rw [beNat_beBytes_of_lt (Nat.lt_of_lt_of_le x.isLt h), BitVec.ofNat_toNat, BitVec.setWidth_eq]

end Sys2Proof.Machine
end

