-- ==== Sys2Proof/Laws/State.lean ====
section
/-! SUPPORT. The small lemmas of the state's updates: one for each field of each update, and one for each table's entry, so that
no proof unfolds a record update. -/

namespace Sys2Proof.Machine

variable (s : State)

/-! ### Entries of a table -/

theorem upd_get {α : Type} {n : Nat} (v : Vector α n) (i j : Fin n) (f : α → α) :
    (upd v i f)[j] = if j = i then f v[i] else v[j] := by
  simp only [upd, Fin.getElem_fin, Vector.getElem_set, Fin.ext_iff, eq_comm]

theorem upd_get_same {α : Type} {n : Nat} (v : Vector α n) (i : Fin n) (f : α → α) : (upd v i f)[i] = f v[i] :=
  (upd_get v i i f).trans (if_pos rfl)

theorem upd_get_ne {α : Type} {n : Nat} (v : Vector α n) {i j : Fin n} (f : α → α) (h : j ≠ i) : (upd v i f)[j] = v[j] :=
  (upd_get v i j f).trans (if_neg h)

/-! ### modBay -/

@[simp] theorem State.modBay_link (b : Bay) (f : BayRec → BayRec) : (s.modBay b f).link = s.link := rfl
@[simp] theorem State.modBay_dispatcher (b : Bay) (f : BayRec → BayRec) : (s.modBay b f).dispatcher = s.dispatcher := rfl
@[simp] theorem State.modBay_bays (b : Bay) (f : BayRec → BayRec) : (s.modBay b f).bays = upd s.bays b f := rfl
@[simp] theorem State.modBay_ports (b : Bay) (f : BayRec → BayRec) : (s.modBay b f).ports = s.ports := rfl
@[simp] theorem State.modBay_buses (b : Bay) (f : BayRec → BayRec) : (s.modBay b f).buses = s.buses := rfl
@[simp] theorem State.modBay_digest (b : Bay) (f : BayRec → BayRec) : (s.modBay b f).digest = s.digest := rfl
@[simp] theorem State.modBay_accounts (b : Bay) (f : BayRec → BayRec) : (s.modBay b f).accounts = s.accounts := rfl
@[simp] theorem State.modBay_orders (b : Bay) (f : BayRec → BayRec) : (s.modBay b f).orders = s.orders := rfl
@[simp] theorem State.modBay_refill (b : Bay) (f : BayRec → BayRec) : (s.modBay b f).refill = s.refill := rfl
@[simp] theorem State.modBay_supply (b : Bay) (f : BayRec → BayRec) : (s.modBay b f).supply = s.supply := rfl
@[simp] theorem State.modBay_journal (b : Bay) (f : BayRec → BayRec) : (s.modBay b f).journal = s.journal := rfl
@[simp] theorem State.modBay_notice (b : Bay) (f : BayRec → BayRec) : (s.modBay b f).notice = s.notice := rfl
@[simp] theorem State.modBay_presence (b : Bay) (f : BayRec → BayRec) : (s.modBay b f).presence = s.presence := rfl
@[simp] theorem State.modBay_free (b : Bay) (f : BayRec → BayRec) : (s.modBay b f).free = s.free := rfl
@[simp] theorem State.modBay_pending (b : Bay) (f : BayRec → BayRec) : (s.modBay b f).pending = s.pending := rfl

/-! ### modAccount -/

@[simp] theorem State.modAccount_link (b : Bay) (f : Account → Account) : (s.modAccount b f).link = s.link := rfl
@[simp] theorem State.modAccount_dispatcher (b : Bay) (f : Account → Account) : (s.modAccount b f).dispatcher = s.dispatcher := rfl
@[simp] theorem State.modAccount_bays (b : Bay) (f : Account → Account) : (s.modAccount b f).bays = s.bays := rfl
@[simp] theorem State.modAccount_ports (b : Bay) (f : Account → Account) : (s.modAccount b f).ports = s.ports := rfl
@[simp] theorem State.modAccount_buses (b : Bay) (f : Account → Account) : (s.modAccount b f).buses = s.buses := rfl
@[simp] theorem State.modAccount_digest (b : Bay) (f : Account → Account) : (s.modAccount b f).digest = s.digest := rfl
@[simp] theorem State.modAccount_accounts (b : Bay) (f : Account → Account) : (s.modAccount b f).accounts = upd s.accounts b f := rfl
@[simp] theorem State.modAccount_orders (b : Bay) (f : Account → Account) : (s.modAccount b f).orders = s.orders := rfl
@[simp] theorem State.modAccount_refill (b : Bay) (f : Account → Account) : (s.modAccount b f).refill = s.refill := rfl
@[simp] theorem State.modAccount_supply (b : Bay) (f : Account → Account) : (s.modAccount b f).supply = s.supply := rfl
@[simp] theorem State.modAccount_journal (b : Bay) (f : Account → Account) : (s.modAccount b f).journal = s.journal := rfl
@[simp] theorem State.modAccount_notice (b : Bay) (f : Account → Account) : (s.modAccount b f).notice = s.notice := rfl
@[simp] theorem State.modAccount_presence (b : Bay) (f : Account → Account) : (s.modAccount b f).presence = s.presence := rfl
@[simp] theorem State.modAccount_free (b : Bay) (f : Account → Account) : (s.modAccount b f).free = s.free := rfl
@[simp] theorem State.modAccount_pending (b : Bay) (f : Account → Account) : (s.modAccount b f).pending = s.pending := rfl

/-! ### modPort -/

@[simp] theorem State.modPort_link (b : Bay) (f : Port → Port) : (s.modPort b f).link = s.link := rfl
@[simp] theorem State.modPort_dispatcher (b : Bay) (f : Port → Port) : (s.modPort b f).dispatcher = s.dispatcher := rfl
@[simp] theorem State.modPort_bays (b : Bay) (f : Port → Port) : (s.modPort b f).bays = s.bays := rfl
@[simp] theorem State.modPort_ports (b : Bay) (f : Port → Port) : (s.modPort b f).ports = upd s.ports b f := rfl
@[simp] theorem State.modPort_buses (b : Bay) (f : Port → Port) : (s.modPort b f).buses = s.buses := rfl
@[simp] theorem State.modPort_digest (b : Bay) (f : Port → Port) : (s.modPort b f).digest = s.digest := rfl
@[simp] theorem State.modPort_accounts (b : Bay) (f : Port → Port) : (s.modPort b f).accounts = s.accounts := rfl
@[simp] theorem State.modPort_orders (b : Bay) (f : Port → Port) : (s.modPort b f).orders = s.orders := rfl
@[simp] theorem State.modPort_refill (b : Bay) (f : Port → Port) : (s.modPort b f).refill = s.refill := rfl
@[simp] theorem State.modPort_supply (b : Bay) (f : Port → Port) : (s.modPort b f).supply = s.supply := rfl
@[simp] theorem State.modPort_journal (b : Bay) (f : Port → Port) : (s.modPort b f).journal = s.journal := rfl
@[simp] theorem State.modPort_notice (b : Bay) (f : Port → Port) : (s.modPort b f).notice = s.notice := rfl
@[simp] theorem State.modPort_presence (b : Bay) (f : Port → Port) : (s.modPort b f).presence = s.presence := rfl
@[simp] theorem State.modPort_free (b : Bay) (f : Port → Port) : (s.modPort b f).free = s.free := rfl
@[simp] theorem State.modPort_pending (b : Bay) (f : Port → Port) : (s.modPort b f).pending = s.pending := rfl

/-! ### modBus -/

@[simp] theorem State.modBus_link (n : Bus) (f : BusState → BusState) : (s.modBus n f).link = s.link := rfl
@[simp] theorem State.modBus_dispatcher (n : Bus) (f : BusState → BusState) : (s.modBus n f).dispatcher = s.dispatcher := rfl
@[simp] theorem State.modBus_bays (n : Bus) (f : BusState → BusState) : (s.modBus n f).bays = s.bays := rfl
@[simp] theorem State.modBus_ports (n : Bus) (f : BusState → BusState) : (s.modBus n f).ports = s.ports := rfl
@[simp] theorem State.modBus_buses (n : Bus) (f : BusState → BusState) : (s.modBus n f).buses = upd s.buses n f := rfl
@[simp] theorem State.modBus_digest (n : Bus) (f : BusState → BusState) : (s.modBus n f).digest = s.digest := rfl
@[simp] theorem State.modBus_accounts (n : Bus) (f : BusState → BusState) : (s.modBus n f).accounts = s.accounts := rfl
@[simp] theorem State.modBus_orders (n : Bus) (f : BusState → BusState) : (s.modBus n f).orders = s.orders := rfl
@[simp] theorem State.modBus_refill (n : Bus) (f : BusState → BusState) : (s.modBus n f).refill = s.refill := rfl
@[simp] theorem State.modBus_supply (n : Bus) (f : BusState → BusState) : (s.modBus n f).supply = s.supply := rfl
@[simp] theorem State.modBus_journal (n : Bus) (f : BusState → BusState) : (s.modBus n f).journal = s.journal := rfl
@[simp] theorem State.modBus_notice (n : Bus) (f : BusState → BusState) : (s.modBus n f).notice = s.notice := rfl
@[simp] theorem State.modBus_presence (n : Bus) (f : BusState → BusState) : (s.modBus n f).presence = s.presence := rfl
@[simp] theorem State.modBus_free (n : Bus) (f : BusState → BusState) : (s.modBus n f).free = s.free := rfl
@[simp] theorem State.modBus_pending (n : Bus) (f : BusState → BusState) : (s.modBus n f).pending = s.pending := rfl

/-! ### modOrders -/

@[simp] theorem State.modOrders_link (b : Bay) (f : List MarkOrder → List MarkOrder) : (s.modOrders b f).link = s.link := rfl
@[simp] theorem State.modOrders_dispatcher (b : Bay) (f : List MarkOrder → List MarkOrder) : (s.modOrders b f).dispatcher = s.dispatcher := rfl
@[simp] theorem State.modOrders_bays (b : Bay) (f : List MarkOrder → List MarkOrder) : (s.modOrders b f).bays = s.bays := rfl
@[simp] theorem State.modOrders_ports (b : Bay) (f : List MarkOrder → List MarkOrder) : (s.modOrders b f).ports = s.ports := rfl
@[simp] theorem State.modOrders_buses (b : Bay) (f : List MarkOrder → List MarkOrder) : (s.modOrders b f).buses = s.buses := rfl
@[simp] theorem State.modOrders_digest (b : Bay) (f : List MarkOrder → List MarkOrder) : (s.modOrders b f).digest = s.digest := rfl
@[simp] theorem State.modOrders_accounts (b : Bay) (f : List MarkOrder → List MarkOrder) : (s.modOrders b f).accounts = s.accounts := rfl
@[simp] theorem State.modOrders_orders (b : Bay) (f : List MarkOrder → List MarkOrder) : (s.modOrders b f).orders = upd s.orders b f := rfl
@[simp] theorem State.modOrders_refill (b : Bay) (f : List MarkOrder → List MarkOrder) : (s.modOrders b f).refill = s.refill := rfl
@[simp] theorem State.modOrders_supply (b : Bay) (f : List MarkOrder → List MarkOrder) : (s.modOrders b f).supply = s.supply := rfl
@[simp] theorem State.modOrders_journal (b : Bay) (f : List MarkOrder → List MarkOrder) : (s.modOrders b f).journal = s.journal := rfl
@[simp] theorem State.modOrders_notice (b : Bay) (f : List MarkOrder → List MarkOrder) : (s.modOrders b f).notice = s.notice := rfl
@[simp] theorem State.modOrders_presence (b : Bay) (f : List MarkOrder → List MarkOrder) : (s.modOrders b f).presence = s.presence := rfl
@[simp] theorem State.modOrders_free (b : Bay) (f : List MarkOrder → List MarkOrder) : (s.modOrders b f).free = s.free := rfl
@[simp] theorem State.modOrders_pending (b : Bay) (f : List MarkOrder → List MarkOrder) : (s.modOrders b f).pending = s.pending := rfl

/-! ### modDigest -/

@[simp] theorem State.modDigest_link (f : Digest → Digest) : (s.modDigest f).link = s.link := rfl
@[simp] theorem State.modDigest_dispatcher (f : Digest → Digest) : (s.modDigest f).dispatcher = s.dispatcher := rfl
@[simp] theorem State.modDigest_bays (f : Digest → Digest) : (s.modDigest f).bays = s.bays := rfl
@[simp] theorem State.modDigest_ports (f : Digest → Digest) : (s.modDigest f).ports = s.ports := rfl
@[simp] theorem State.modDigest_buses (f : Digest → Digest) : (s.modDigest f).buses = s.buses := rfl
@[simp] theorem State.modDigest_digest (f : Digest → Digest) : (s.modDigest f).digest = f s.digest := rfl
@[simp] theorem State.modDigest_accounts (f : Digest → Digest) : (s.modDigest f).accounts = s.accounts := rfl
@[simp] theorem State.modDigest_orders (f : Digest → Digest) : (s.modDigest f).orders = s.orders := rfl
@[simp] theorem State.modDigest_refill (f : Digest → Digest) : (s.modDigest f).refill = s.refill := rfl
@[simp] theorem State.modDigest_supply (f : Digest → Digest) : (s.modDigest f).supply = s.supply := rfl
@[simp] theorem State.modDigest_journal (f : Digest → Digest) : (s.modDigest f).journal = s.journal := rfl
@[simp] theorem State.modDigest_notice (f : Digest → Digest) : (s.modDigest f).notice = s.notice := rfl
@[simp] theorem State.modDigest_presence (f : Digest → Digest) : (s.modDigest f).presence = s.presence := rfl
@[simp] theorem State.modDigest_free (f : Digest → Digest) : (s.modDigest f).free = s.free := rfl
@[simp] theorem State.modDigest_pending (f : Digest → Digest) : (s.modDigest f).pending = s.pending := rfl

/-! ### modContext -/

@[simp] theorem State.modContext_link (b : Bay) (f : Context → Context) : (s.modContext b f).link = s.link := rfl
@[simp] theorem State.modContext_dispatcher (b : Bay) (f : Context → Context) : (s.modContext b f).dispatcher = s.dispatcher := rfl
@[simp] theorem State.modContext_bays (b : Bay) (f : Context → Context) : (s.modContext b f).bays = s.bays := rfl
@[simp] theorem State.modContext_ports (b : Bay) (f : Context → Context) : (s.modContext b f).ports = s.ports := rfl
@[simp] theorem State.modContext_buses (b : Bay) (f : Context → Context) : (s.modContext b f).buses = s.buses := rfl
@[simp] theorem State.modContext_digest (b : Bay) (f : Context → Context) : (s.modContext b f).digest = { s.digest with contexts := upd s.digest.contexts b f } := rfl
@[simp] theorem State.modContext_accounts (b : Bay) (f : Context → Context) : (s.modContext b f).accounts = s.accounts := rfl
@[simp] theorem State.modContext_orders (b : Bay) (f : Context → Context) : (s.modContext b f).orders = s.orders := rfl
@[simp] theorem State.modContext_refill (b : Bay) (f : Context → Context) : (s.modContext b f).refill = s.refill := rfl
@[simp] theorem State.modContext_supply (b : Bay) (f : Context → Context) : (s.modContext b f).supply = s.supply := rfl
@[simp] theorem State.modContext_journal (b : Bay) (f : Context → Context) : (s.modContext b f).journal = s.journal := rfl
@[simp] theorem State.modContext_notice (b : Bay) (f : Context → Context) : (s.modContext b f).notice = s.notice := rfl
@[simp] theorem State.modContext_presence (b : Bay) (f : Context → Context) : (s.modContext b f).presence = s.presence := rfl
@[simp] theorem State.modContext_free (b : Bay) (f : Context → Context) : (s.modContext b f).free = s.free := rfl
@[simp] theorem State.modContext_pending (b : Bay) (f : Context → Context) : (s.modContext b f).pending = s.pending := rfl

/-! ### modJournal -/

@[simp] theorem State.modJournal_link (f : Journal → Journal) : (s.modJournal f).link = s.link := rfl
@[simp] theorem State.modJournal_dispatcher (f : Journal → Journal) : (s.modJournal f).dispatcher = s.dispatcher := rfl
@[simp] theorem State.modJournal_bays (f : Journal → Journal) : (s.modJournal f).bays = s.bays := rfl
@[simp] theorem State.modJournal_ports (f : Journal → Journal) : (s.modJournal f).ports = s.ports := rfl
@[simp] theorem State.modJournal_buses (f : Journal → Journal) : (s.modJournal f).buses = s.buses := rfl
@[simp] theorem State.modJournal_digest (f : Journal → Journal) : (s.modJournal f).digest = s.digest := rfl
@[simp] theorem State.modJournal_accounts (f : Journal → Journal) : (s.modJournal f).accounts = s.accounts := rfl
@[simp] theorem State.modJournal_orders (f : Journal → Journal) : (s.modJournal f).orders = s.orders := rfl
@[simp] theorem State.modJournal_refill (f : Journal → Journal) : (s.modJournal f).refill = s.refill := rfl
@[simp] theorem State.modJournal_supply (f : Journal → Journal) : (s.modJournal f).supply = s.supply := rfl
@[simp] theorem State.modJournal_journal (f : Journal → Journal) : (s.modJournal f).journal = f s.journal := rfl
@[simp] theorem State.modJournal_notice (f : Journal → Journal) : (s.modJournal f).notice = s.notice := rfl
@[simp] theorem State.modJournal_presence (f : Journal → Journal) : (s.modJournal f).presence = s.presence := rfl
@[simp] theorem State.modJournal_free (f : Journal → Journal) : (s.modJournal f).free = s.free := rfl
@[simp] theorem State.modJournal_pending (f : Journal → Journal) : (s.modJournal f).pending = s.pending := rfl

/-! ### modNotice -/

@[simp] theorem State.modNotice_link (f : NoticeUnit → NoticeUnit) : (s.modNotice f).link = s.link := rfl
@[simp] theorem State.modNotice_dispatcher (f : NoticeUnit → NoticeUnit) : (s.modNotice f).dispatcher = s.dispatcher := rfl
@[simp] theorem State.modNotice_bays (f : NoticeUnit → NoticeUnit) : (s.modNotice f).bays = s.bays := rfl
@[simp] theorem State.modNotice_ports (f : NoticeUnit → NoticeUnit) : (s.modNotice f).ports = s.ports := rfl
@[simp] theorem State.modNotice_buses (f : NoticeUnit → NoticeUnit) : (s.modNotice f).buses = s.buses := rfl
@[simp] theorem State.modNotice_digest (f : NoticeUnit → NoticeUnit) : (s.modNotice f).digest = s.digest := rfl
@[simp] theorem State.modNotice_accounts (f : NoticeUnit → NoticeUnit) : (s.modNotice f).accounts = s.accounts := rfl
@[simp] theorem State.modNotice_orders (f : NoticeUnit → NoticeUnit) : (s.modNotice f).orders = s.orders := rfl
@[simp] theorem State.modNotice_refill (f : NoticeUnit → NoticeUnit) : (s.modNotice f).refill = s.refill := rfl
@[simp] theorem State.modNotice_supply (f : NoticeUnit → NoticeUnit) : (s.modNotice f).supply = s.supply := rfl
@[simp] theorem State.modNotice_journal (f : NoticeUnit → NoticeUnit) : (s.modNotice f).journal = s.journal := rfl
@[simp] theorem State.modNotice_notice (f : NoticeUnit → NoticeUnit) : (s.modNotice f).notice = f s.notice := rfl
@[simp] theorem State.modNotice_presence (f : NoticeUnit → NoticeUnit) : (s.modNotice f).presence = s.presence := rfl
@[simp] theorem State.modNotice_free (f : NoticeUnit → NoticeUnit) : (s.modNotice f).free = s.free := rfl
@[simp] theorem State.modNotice_pending (f : NoticeUnit → NoticeUnit) : (s.modNotice f).pending = s.pending := rfl

/-! ### modRefill -/

@[simp] theorem State.modRefill_link (f : RefillWatch → RefillWatch) : (s.modRefill f).link = s.link := rfl
@[simp] theorem State.modRefill_dispatcher (f : RefillWatch → RefillWatch) : (s.modRefill f).dispatcher = s.dispatcher := rfl
@[simp] theorem State.modRefill_bays (f : RefillWatch → RefillWatch) : (s.modRefill f).bays = s.bays := rfl
@[simp] theorem State.modRefill_ports (f : RefillWatch → RefillWatch) : (s.modRefill f).ports = s.ports := rfl
@[simp] theorem State.modRefill_buses (f : RefillWatch → RefillWatch) : (s.modRefill f).buses = s.buses := rfl
@[simp] theorem State.modRefill_digest (f : RefillWatch → RefillWatch) : (s.modRefill f).digest = s.digest := rfl
@[simp] theorem State.modRefill_accounts (f : RefillWatch → RefillWatch) : (s.modRefill f).accounts = s.accounts := rfl
@[simp] theorem State.modRefill_orders (f : RefillWatch → RefillWatch) : (s.modRefill f).orders = s.orders := rfl
@[simp] theorem State.modRefill_refill (f : RefillWatch → RefillWatch) : (s.modRefill f).refill = f s.refill := rfl
@[simp] theorem State.modRefill_supply (f : RefillWatch → RefillWatch) : (s.modRefill f).supply = s.supply := rfl
@[simp] theorem State.modRefill_journal (f : RefillWatch → RefillWatch) : (s.modRefill f).journal = s.journal := rfl
@[simp] theorem State.modRefill_notice (f : RefillWatch → RefillWatch) : (s.modRefill f).notice = s.notice := rfl
@[simp] theorem State.modRefill_presence (f : RefillWatch → RefillWatch) : (s.modRefill f).presence = s.presence := rfl
@[simp] theorem State.modRefill_free (f : RefillWatch → RefillWatch) : (s.modRefill f).free = s.free := rfl
@[simp] theorem State.modRefill_pending (f : RefillWatch → RefillWatch) : (s.modRefill f).pending = s.pending := rfl

/-! ### modSupply -/

@[simp] theorem State.modSupply_link (f : Supply → Supply) : (s.modSupply f).link = s.link := rfl
@[simp] theorem State.modSupply_dispatcher (f : Supply → Supply) : (s.modSupply f).dispatcher = s.dispatcher := rfl
@[simp] theorem State.modSupply_bays (f : Supply → Supply) : (s.modSupply f).bays = s.bays := rfl
@[simp] theorem State.modSupply_ports (f : Supply → Supply) : (s.modSupply f).ports = s.ports := rfl
@[simp] theorem State.modSupply_buses (f : Supply → Supply) : (s.modSupply f).buses = s.buses := rfl
@[simp] theorem State.modSupply_digest (f : Supply → Supply) : (s.modSupply f).digest = s.digest := rfl
@[simp] theorem State.modSupply_accounts (f : Supply → Supply) : (s.modSupply f).accounts = s.accounts := rfl
@[simp] theorem State.modSupply_orders (f : Supply → Supply) : (s.modSupply f).orders = s.orders := rfl
@[simp] theorem State.modSupply_refill (f : Supply → Supply) : (s.modSupply f).refill = s.refill := rfl
@[simp] theorem State.modSupply_supply (f : Supply → Supply) : (s.modSupply f).supply = f s.supply := rfl
@[simp] theorem State.modSupply_journal (f : Supply → Supply) : (s.modSupply f).journal = s.journal := rfl
@[simp] theorem State.modSupply_notice (f : Supply → Supply) : (s.modSupply f).notice = s.notice := rfl
@[simp] theorem State.modSupply_presence (f : Supply → Supply) : (s.modSupply f).presence = s.presence := rfl
@[simp] theorem State.modSupply_free (f : Supply → Supply) : (s.modSupply f).free = s.free := rfl
@[simp] theorem State.modSupply_pending (f : Supply → Supply) : (s.modSupply f).pending = s.pending := rfl

/-! ### modLink -/

@[simp] theorem State.modLink_link (f : Link → Link) : (s.modLink f).link = f s.link := rfl
@[simp] theorem State.modLink_dispatcher (f : Link → Link) : (s.modLink f).dispatcher = s.dispatcher := rfl
@[simp] theorem State.modLink_bays (f : Link → Link) : (s.modLink f).bays = s.bays := rfl
@[simp] theorem State.modLink_ports (f : Link → Link) : (s.modLink f).ports = s.ports := rfl
@[simp] theorem State.modLink_buses (f : Link → Link) : (s.modLink f).buses = s.buses := rfl
@[simp] theorem State.modLink_digest (f : Link → Link) : (s.modLink f).digest = s.digest := rfl
@[simp] theorem State.modLink_accounts (f : Link → Link) : (s.modLink f).accounts = s.accounts := rfl
@[simp] theorem State.modLink_orders (f : Link → Link) : (s.modLink f).orders = s.orders := rfl
@[simp] theorem State.modLink_refill (f : Link → Link) : (s.modLink f).refill = s.refill := rfl
@[simp] theorem State.modLink_supply (f : Link → Link) : (s.modLink f).supply = s.supply := rfl
@[simp] theorem State.modLink_journal (f : Link → Link) : (s.modLink f).journal = s.journal := rfl
@[simp] theorem State.modLink_notice (f : Link → Link) : (s.modLink f).notice = s.notice := rfl
@[simp] theorem State.modLink_presence (f : Link → Link) : (s.modLink f).presence = s.presence := rfl
@[simp] theorem State.modLink_free (f : Link → Link) : (s.modLink f).free = s.free := rfl
@[simp] theorem State.modLink_pending (f : Link → Link) : (s.modLink f).pending = s.pending := rfl

/-! ### modDispatcher -/

@[simp] theorem State.modDispatcher_link (f : Dispatcher → Dispatcher) : (s.modDispatcher f).link = s.link := rfl
@[simp] theorem State.modDispatcher_dispatcher (f : Dispatcher → Dispatcher) : (s.modDispatcher f).dispatcher = f s.dispatcher := rfl
@[simp] theorem State.modDispatcher_bays (f : Dispatcher → Dispatcher) : (s.modDispatcher f).bays = s.bays := rfl
@[simp] theorem State.modDispatcher_ports (f : Dispatcher → Dispatcher) : (s.modDispatcher f).ports = s.ports := rfl
@[simp] theorem State.modDispatcher_buses (f : Dispatcher → Dispatcher) : (s.modDispatcher f).buses = s.buses := rfl
@[simp] theorem State.modDispatcher_digest (f : Dispatcher → Dispatcher) : (s.modDispatcher f).digest = s.digest := rfl
@[simp] theorem State.modDispatcher_accounts (f : Dispatcher → Dispatcher) : (s.modDispatcher f).accounts = s.accounts := rfl
@[simp] theorem State.modDispatcher_orders (f : Dispatcher → Dispatcher) : (s.modDispatcher f).orders = s.orders := rfl
@[simp] theorem State.modDispatcher_refill (f : Dispatcher → Dispatcher) : (s.modDispatcher f).refill = s.refill := rfl
@[simp] theorem State.modDispatcher_supply (f : Dispatcher → Dispatcher) : (s.modDispatcher f).supply = s.supply := rfl
@[simp] theorem State.modDispatcher_journal (f : Dispatcher → Dispatcher) : (s.modDispatcher f).journal = s.journal := rfl
@[simp] theorem State.modDispatcher_notice (f : Dispatcher → Dispatcher) : (s.modDispatcher f).notice = s.notice := rfl
@[simp] theorem State.modDispatcher_presence (f : Dispatcher → Dispatcher) : (s.modDispatcher f).presence = s.presence := rfl
@[simp] theorem State.modDispatcher_free (f : Dispatcher → Dispatcher) : (s.modDispatcher f).free = s.free := rfl
@[simp] theorem State.modDispatcher_pending (f : Dispatcher → Dispatcher) : (s.modDispatcher f).pending = s.pending := rfl

/-! ### modSettings -/

@[simp] theorem State.modSettings_link (f : Settings → Settings) : (s.modSettings f).link = s.link := rfl
@[simp] theorem State.modSettings_dispatcher (f : Settings → Settings) : (s.modSettings f).dispatcher = { s.dispatcher with settings := f s.dispatcher.settings } := rfl
@[simp] theorem State.modSettings_bays (f : Settings → Settings) : (s.modSettings f).bays = s.bays := rfl
@[simp] theorem State.modSettings_ports (f : Settings → Settings) : (s.modSettings f).ports = s.ports := rfl
@[simp] theorem State.modSettings_buses (f : Settings → Settings) : (s.modSettings f).buses = s.buses := rfl
@[simp] theorem State.modSettings_digest (f : Settings → Settings) : (s.modSettings f).digest = s.digest := rfl
@[simp] theorem State.modSettings_accounts (f : Settings → Settings) : (s.modSettings f).accounts = s.accounts := rfl
@[simp] theorem State.modSettings_orders (f : Settings → Settings) : (s.modSettings f).orders = s.orders := rfl
@[simp] theorem State.modSettings_refill (f : Settings → Settings) : (s.modSettings f).refill = s.refill := rfl
@[simp] theorem State.modSettings_supply (f : Settings → Settings) : (s.modSettings f).supply = s.supply := rfl
@[simp] theorem State.modSettings_journal (f : Settings → Settings) : (s.modSettings f).journal = s.journal := rfl
@[simp] theorem State.modSettings_notice (f : Settings → Settings) : (s.modSettings f).notice = s.notice := rfl
@[simp] theorem State.modSettings_presence (f : Settings → Settings) : (s.modSettings f).presence = s.presence := rfl
@[simp] theorem State.modSettings_free (f : Settings → Settings) : (s.modSettings f).free = s.free := rfl
@[simp] theorem State.modSettings_pending (f : Settings → Settings) : (s.modSettings f).pending = s.pending := rfl

/-! ### setPresence -/

@[simp] theorem State.setPresence_link (b : Bay) (p : Bool) : (s.setPresence b p).link = s.link := rfl
@[simp] theorem State.setPresence_dispatcher (b : Bay) (p : Bool) : (s.setPresence b p).dispatcher = s.dispatcher := rfl
@[simp] theorem State.setPresence_bays (b : Bay) (p : Bool) : (s.setPresence b p).bays = s.bays := rfl
@[simp] theorem State.setPresence_ports (b : Bay) (p : Bool) : (s.setPresence b p).ports = s.ports := rfl
@[simp] theorem State.setPresence_buses (b : Bay) (p : Bool) : (s.setPresence b p).buses = s.buses := rfl
@[simp] theorem State.setPresence_digest (b : Bay) (p : Bool) : (s.setPresence b p).digest = s.digest := rfl
@[simp] theorem State.setPresence_accounts (b : Bay) (p : Bool) : (s.setPresence b p).accounts = s.accounts := rfl
@[simp] theorem State.setPresence_orders (b : Bay) (p : Bool) : (s.setPresence b p).orders = s.orders := rfl
@[simp] theorem State.setPresence_refill (b : Bay) (p : Bool) : (s.setPresence b p).refill = s.refill := rfl
@[simp] theorem State.setPresence_supply (b : Bay) (p : Bool) : (s.setPresence b p).supply = s.supply := rfl
@[simp] theorem State.setPresence_journal (b : Bay) (p : Bool) : (s.setPresence b p).journal = s.journal := rfl
@[simp] theorem State.setPresence_notice (b : Bay) (p : Bool) : (s.setPresence b p).notice = s.notice := rfl
@[simp] theorem State.setPresence_presence (b : Bay) (p : Bool) : (s.setPresence b p).presence = upd s.presence b fun _ => p := rfl
@[simp] theorem State.setPresence_free (b : Bay) (p : Bool) : (s.setPresence b p).free = s.free := rfl
@[simp] theorem State.setPresence_pending (b : Bay) (p : Bool) : (s.setPresence b p).pending = s.pending := rfl

/-! ### Entries read after an update -/

theorem State.bay_modBay (i j : Bay) (f : BayRec → BayRec) :
    (s.modBay i f).bay j = if j = i then f (s.bay i) else s.bay j := upd_get _ _ _ _

@[simp] theorem State.bay_modBay_same (i : Bay) (f : BayRec → BayRec) : (s.modBay i f).bay i = f (s.bay i) :=
  upd_get_same _ _ _

theorem State.account_modAccount (i j : Bay) (f : Account → Account) :
    (s.modAccount i f).account j = if j = i then f (s.account i) else s.account j := upd_get _ _ _ _

@[simp] theorem State.account_modAccount_same (i : Bay) (f : Account → Account) : (s.modAccount i f).account i = f (s.account i) :=
  upd_get_same _ _ _

theorem State.port_modPort (i j : Bay) (f : Port → Port) :
    (s.modPort i f).port j = if j = i then f (s.port i) else s.port j := upd_get _ _ _ _

@[simp] theorem State.port_modPort_same (i : Bay) (f : Port → Port) : (s.modPort i f).port i = f (s.port i) :=
  upd_get_same _ _ _

theorem State.bus_modBus (i j : Bus) (f : BusState → BusState) :
    (s.modBus i f).bus j = if j = i then f (s.bus i) else s.bus j := upd_get _ _ _ _

@[simp] theorem State.bus_modBus_same (i : Bus) (f : BusState → BusState) : (s.modBus i f).bus i = f (s.bus i) :=
  upd_get_same _ _ _

theorem State.markOrders_modOrders (i j : Bay) (f : List MarkOrder → List MarkOrder) :
    (s.modOrders i f).markOrders j = if j = i then f (s.markOrders i) else s.markOrders j := upd_get _ _ _ _

@[simp] theorem State.markOrders_modOrders_same (i : Bay) (f : List MarkOrder → List MarkOrder) : (s.modOrders i f).markOrders i = f (s.markOrders i) :=
  upd_get_same _ _ _

theorem State.context_modContext (i j : Bay) (f : Context → Context) :
    (s.modContext i f).context j = if j = i then f (s.context i) else s.context j := upd_get _ _ _ _

@[simp] theorem State.context_modContext_same (i : Bay) (f : Context → Context) : (s.modContext i f).context i = f (s.context i) :=
  upd_get_same _ _ _

@[simp] theorem State.bay_modAccount (b : Bay) (f : Account → Account) (j : Bay) : (s.modAccount b f).bay j = s.bay j := rfl
@[simp] theorem State.bay_modPort (b : Bay) (f : Port → Port) (j : Bay) : (s.modPort b f).bay j = s.bay j := rfl
@[simp] theorem State.bay_modBus (n : Bus) (f : BusState → BusState) (j : Bay) : (s.modBus n f).bay j = s.bay j := rfl
@[simp] theorem State.bay_modOrders (b : Bay) (f : List MarkOrder → List MarkOrder) (j : Bay) : (s.modOrders b f).bay j = s.bay j := rfl
@[simp] theorem State.bay_modDigest (f : Digest → Digest) (j : Bay) : (s.modDigest f).bay j = s.bay j := rfl
@[simp] theorem State.bay_modContext (b : Bay) (f : Context → Context) (j : Bay) : (s.modContext b f).bay j = s.bay j := rfl
@[simp] theorem State.bay_modJournal (f : Journal → Journal) (j : Bay) : (s.modJournal f).bay j = s.bay j := rfl
@[simp] theorem State.bay_modNotice (f : NoticeUnit → NoticeUnit) (j : Bay) : (s.modNotice f).bay j = s.bay j := rfl
@[simp] theorem State.bay_modRefill (f : RefillWatch → RefillWatch) (j : Bay) : (s.modRefill f).bay j = s.bay j := rfl
@[simp] theorem State.bay_modSupply (f : Supply → Supply) (j : Bay) : (s.modSupply f).bay j = s.bay j := rfl
@[simp] theorem State.bay_modLink (f : Link → Link) (j : Bay) : (s.modLink f).bay j = s.bay j := rfl
@[simp] theorem State.bay_modDispatcher (f : Dispatcher → Dispatcher) (j : Bay) : (s.modDispatcher f).bay j = s.bay j := rfl
@[simp] theorem State.bay_modSettings (f : Settings → Settings) (j : Bay) : (s.modSettings f).bay j = s.bay j := rfl
@[simp] theorem State.bay_setPresence (b : Bay) (p : Bool) (j : Bay) : (s.setPresence b p).bay j = s.bay j := rfl

@[simp] theorem State.account_modBay (b : Bay) (f : BayRec → BayRec) (j : Bay) : (s.modBay b f).account j = s.account j := rfl
@[simp] theorem State.account_modPort (b : Bay) (f : Port → Port) (j : Bay) : (s.modPort b f).account j = s.account j := rfl
@[simp] theorem State.account_modBus (n : Bus) (f : BusState → BusState) (j : Bay) : (s.modBus n f).account j = s.account j := rfl
@[simp] theorem State.account_modOrders (b : Bay) (f : List MarkOrder → List MarkOrder) (j : Bay) : (s.modOrders b f).account j = s.account j := rfl
@[simp] theorem State.account_modDigest (f : Digest → Digest) (j : Bay) : (s.modDigest f).account j = s.account j := rfl
@[simp] theorem State.account_modContext (b : Bay) (f : Context → Context) (j : Bay) : (s.modContext b f).account j = s.account j := rfl
@[simp] theorem State.account_modJournal (f : Journal → Journal) (j : Bay) : (s.modJournal f).account j = s.account j := rfl
@[simp] theorem State.account_modNotice (f : NoticeUnit → NoticeUnit) (j : Bay) : (s.modNotice f).account j = s.account j := rfl
@[simp] theorem State.account_modRefill (f : RefillWatch → RefillWatch) (j : Bay) : (s.modRefill f).account j = s.account j := rfl
@[simp] theorem State.account_modSupply (f : Supply → Supply) (j : Bay) : (s.modSupply f).account j = s.account j := rfl
@[simp] theorem State.account_modLink (f : Link → Link) (j : Bay) : (s.modLink f).account j = s.account j := rfl
@[simp] theorem State.account_modDispatcher (f : Dispatcher → Dispatcher) (j : Bay) : (s.modDispatcher f).account j = s.account j := rfl
@[simp] theorem State.account_modSettings (f : Settings → Settings) (j : Bay) : (s.modSettings f).account j = s.account j := rfl
@[simp] theorem State.account_setPresence (b : Bay) (p : Bool) (j : Bay) : (s.setPresence b p).account j = s.account j := rfl

@[simp] theorem State.port_modBay (b : Bay) (f : BayRec → BayRec) (j : Bay) : (s.modBay b f).port j = s.port j := rfl
@[simp] theorem State.port_modAccount (b : Bay) (f : Account → Account) (j : Bay) : (s.modAccount b f).port j = s.port j := rfl
@[simp] theorem State.port_modBus (n : Bus) (f : BusState → BusState) (j : Bay) : (s.modBus n f).port j = s.port j := rfl
@[simp] theorem State.port_modOrders (b : Bay) (f : List MarkOrder → List MarkOrder) (j : Bay) : (s.modOrders b f).port j = s.port j := rfl
@[simp] theorem State.port_modDigest (f : Digest → Digest) (j : Bay) : (s.modDigest f).port j = s.port j := rfl
@[simp] theorem State.port_modContext (b : Bay) (f : Context → Context) (j : Bay) : (s.modContext b f).port j = s.port j := rfl
@[simp] theorem State.port_modJournal (f : Journal → Journal) (j : Bay) : (s.modJournal f).port j = s.port j := rfl
@[simp] theorem State.port_modNotice (f : NoticeUnit → NoticeUnit) (j : Bay) : (s.modNotice f).port j = s.port j := rfl
@[simp] theorem State.port_modRefill (f : RefillWatch → RefillWatch) (j : Bay) : (s.modRefill f).port j = s.port j := rfl
@[simp] theorem State.port_modSupply (f : Supply → Supply) (j : Bay) : (s.modSupply f).port j = s.port j := rfl
@[simp] theorem State.port_modLink (f : Link → Link) (j : Bay) : (s.modLink f).port j = s.port j := rfl
@[simp] theorem State.port_modDispatcher (f : Dispatcher → Dispatcher) (j : Bay) : (s.modDispatcher f).port j = s.port j := rfl
@[simp] theorem State.port_modSettings (f : Settings → Settings) (j : Bay) : (s.modSettings f).port j = s.port j := rfl
@[simp] theorem State.port_setPresence (b : Bay) (p : Bool) (j : Bay) : (s.setPresence b p).port j = s.port j := rfl

@[simp] theorem State.bus_modBay (b : Bay) (f : BayRec → BayRec) (j : Bus) : (s.modBay b f).bus j = s.bus j := rfl
@[simp] theorem State.bus_modAccount (b : Bay) (f : Account → Account) (j : Bus) : (s.modAccount b f).bus j = s.bus j := rfl
@[simp] theorem State.bus_modPort (b : Bay) (f : Port → Port) (j : Bus) : (s.modPort b f).bus j = s.bus j := rfl
@[simp] theorem State.bus_modOrders (b : Bay) (f : List MarkOrder → List MarkOrder) (j : Bus) : (s.modOrders b f).bus j = s.bus j := rfl
@[simp] theorem State.bus_modDigest (f : Digest → Digest) (j : Bus) : (s.modDigest f).bus j = s.bus j := rfl
@[simp] theorem State.bus_modContext (b : Bay) (f : Context → Context) (j : Bus) : (s.modContext b f).bus j = s.bus j := rfl
@[simp] theorem State.bus_modJournal (f : Journal → Journal) (j : Bus) : (s.modJournal f).bus j = s.bus j := rfl
@[simp] theorem State.bus_modNotice (f : NoticeUnit → NoticeUnit) (j : Bus) : (s.modNotice f).bus j = s.bus j := rfl
@[simp] theorem State.bus_modRefill (f : RefillWatch → RefillWatch) (j : Bus) : (s.modRefill f).bus j = s.bus j := rfl
@[simp] theorem State.bus_modSupply (f : Supply → Supply) (j : Bus) : (s.modSupply f).bus j = s.bus j := rfl
@[simp] theorem State.bus_modLink (f : Link → Link) (j : Bus) : (s.modLink f).bus j = s.bus j := rfl
@[simp] theorem State.bus_modDispatcher (f : Dispatcher → Dispatcher) (j : Bus) : (s.modDispatcher f).bus j = s.bus j := rfl
@[simp] theorem State.bus_modSettings (f : Settings → Settings) (j : Bus) : (s.modSettings f).bus j = s.bus j := rfl
@[simp] theorem State.bus_setPresence (b : Bay) (p : Bool) (j : Bus) : (s.setPresence b p).bus j = s.bus j := rfl

@[simp] theorem State.markOrders_modBay (b : Bay) (f : BayRec → BayRec) (j : Bay) : (s.modBay b f).markOrders j = s.markOrders j := rfl
@[simp] theorem State.markOrders_modAccount (b : Bay) (f : Account → Account) (j : Bay) : (s.modAccount b f).markOrders j = s.markOrders j := rfl
@[simp] theorem State.markOrders_modPort (b : Bay) (f : Port → Port) (j : Bay) : (s.modPort b f).markOrders j = s.markOrders j := rfl
@[simp] theorem State.markOrders_modBus (n : Bus) (f : BusState → BusState) (j : Bay) : (s.modBus n f).markOrders j = s.markOrders j := rfl
@[simp] theorem State.markOrders_modDigest (f : Digest → Digest) (j : Bay) : (s.modDigest f).markOrders j = s.markOrders j := rfl
@[simp] theorem State.markOrders_modContext (b : Bay) (f : Context → Context) (j : Bay) : (s.modContext b f).markOrders j = s.markOrders j := rfl
@[simp] theorem State.markOrders_modJournal (f : Journal → Journal) (j : Bay) : (s.modJournal f).markOrders j = s.markOrders j := rfl
@[simp] theorem State.markOrders_modNotice (f : NoticeUnit → NoticeUnit) (j : Bay) : (s.modNotice f).markOrders j = s.markOrders j := rfl
@[simp] theorem State.markOrders_modRefill (f : RefillWatch → RefillWatch) (j : Bay) : (s.modRefill f).markOrders j = s.markOrders j := rfl
@[simp] theorem State.markOrders_modSupply (f : Supply → Supply) (j : Bay) : (s.modSupply f).markOrders j = s.markOrders j := rfl
@[simp] theorem State.markOrders_modLink (f : Link → Link) (j : Bay) : (s.modLink f).markOrders j = s.markOrders j := rfl
@[simp] theorem State.markOrders_modDispatcher (f : Dispatcher → Dispatcher) (j : Bay) : (s.modDispatcher f).markOrders j = s.markOrders j := rfl
@[simp] theorem State.markOrders_modSettings (f : Settings → Settings) (j : Bay) : (s.modSettings f).markOrders j = s.markOrders j := rfl
@[simp] theorem State.markOrders_setPresence (b : Bay) (p : Bool) (j : Bay) : (s.setPresence b p).markOrders j = s.markOrders j := rfl

@[simp] theorem State.context_modBay (b : Bay) (f : BayRec → BayRec) (j : Bay) : (s.modBay b f).context j = s.context j := rfl
@[simp] theorem State.context_modAccount (b : Bay) (f : Account → Account) (j : Bay) : (s.modAccount b f).context j = s.context j := rfl
@[simp] theorem State.context_modPort (b : Bay) (f : Port → Port) (j : Bay) : (s.modPort b f).context j = s.context j := rfl
@[simp] theorem State.context_modBus (n : Bus) (f : BusState → BusState) (j : Bay) : (s.modBus n f).context j = s.context j := rfl
@[simp] theorem State.context_modOrders (b : Bay) (f : List MarkOrder → List MarkOrder) (j : Bay) : (s.modOrders b f).context j = s.context j := rfl
@[simp] theorem State.context_modJournal (f : Journal → Journal) (j : Bay) : (s.modJournal f).context j = s.context j := rfl
@[simp] theorem State.context_modNotice (f : NoticeUnit → NoticeUnit) (j : Bay) : (s.modNotice f).context j = s.context j := rfl
@[simp] theorem State.context_modRefill (f : RefillWatch → RefillWatch) (j : Bay) : (s.modRefill f).context j = s.context j := rfl
@[simp] theorem State.context_modSupply (f : Supply → Supply) (j : Bay) : (s.modSupply f).context j = s.context j := rfl
@[simp] theorem State.context_modLink (f : Link → Link) (j : Bay) : (s.modLink f).context j = s.context j := rfl
@[simp] theorem State.context_modDispatcher (f : Dispatcher → Dispatcher) (j : Bay) : (s.modDispatcher f).context j = s.context j := rfl
@[simp] theorem State.context_modSettings (f : Settings → Settings) (j : Bay) : (s.modSettings f).context j = s.context j := rfl
@[simp] theorem State.context_setPresence (b : Bay) (p : Bool) (j : Bay) : (s.setPresence b p).context j = s.context j := rfl

@[simp] theorem State.settings_modSettings (f : Settings → Settings) : (s.modSettings f).settings = f s.settings := rfl
@[simp] theorem State.settings_modBay (b : Bay) (f : BayRec → BayRec) : (s.modBay b f).settings = s.settings := rfl
@[simp] theorem State.settings_modAccount (b : Bay) (f : Account → Account) : (s.modAccount b f).settings = s.settings := rfl
@[simp] theorem State.settings_modPort (b : Bay) (f : Port → Port) : (s.modPort b f).settings = s.settings := rfl
@[simp] theorem State.settings_modBus (n : Bus) (f : BusState → BusState) : (s.modBus n f).settings = s.settings := rfl
@[simp] theorem State.settings_modOrders (b : Bay) (f : List MarkOrder → List MarkOrder) : (s.modOrders b f).settings = s.settings := rfl
@[simp] theorem State.settings_modDigest (f : Digest → Digest) : (s.modDigest f).settings = s.settings := rfl
@[simp] theorem State.settings_modContext (b : Bay) (f : Context → Context) : (s.modContext b f).settings = s.settings := rfl
@[simp] theorem State.settings_modJournal (f : Journal → Journal) : (s.modJournal f).settings = s.settings := rfl
@[simp] theorem State.settings_modNotice (f : NoticeUnit → NoticeUnit) : (s.modNotice f).settings = s.settings := rfl
@[simp] theorem State.settings_modRefill (f : RefillWatch → RefillWatch) : (s.modRefill f).settings = s.settings := rfl
@[simp] theorem State.settings_modSupply (f : Supply → Supply) : (s.modSupply f).settings = s.settings := rfl
@[simp] theorem State.settings_modLink (f : Link → Link) : (s.modLink f).settings = s.settings := rfl
@[simp] theorem State.settings_setPresence (b : Bay) (p : Bool) : (s.setPresence b p).settings = s.settings := rfl

/-! ### One event's replies (R169, R178) -/

theorem Link.placedSince_self (l : Link) : l.placedSince l = [] := by
  unfold Link.placedSince; cases l.sending <;> simp

theorem Link.placedSince_place (l : Link) (r : Reply) : (l.place r).placedSince l = [r] := by
  obtain ⟨_, _, _ | _, _⟩ := l <;> simp [Link.placedSince, Link.place]

/-- What an event does but for the order of its replies: nothing but the line and the count of free values differs. -/
theorem State.together_only (f : State → State) : ∃ l n, s.together f = { f s with link := l, free := n } := by
  unfold State.together; dsimp only; split <;> exact ⟨_, _, rfl⟩

/-- An event that places at most one reply is what it is. -/
theorem State.together_eq {f : State → State} (h : ((f s).link.placedSince s.link).length ≤ 1) : s.together f = f s := by
  unfold State.together; dsimp only; rw [if_pos h]

theorem State.together_of_link {f : State → State} (h : (f s).link = s.link) : s.together f = f s :=
  s.together_eq (by rw [h, Link.placedSince_self]; exact Nat.zero_le 1)

theorem State.together_of_place {f : State → State} {r : Reply} (h : (f s).link = s.link.place r) : s.together f = f s :=
  s.together_eq (by rw [h, Link.placedSince_place]; exact Nat.le_refl 1)

theorem insertAt_perm {α : Type} (l : List α) (k : Nat) (a : α) : (insertAt l k a).Perm (a :: l) := by
  induction l generalizing k with
  | nil => exact .refl _
  | cons x xs ih =>
    cases k with
    | zero => exact .refl _
    | succ k => exact ((ih k).cons x).trans (.swap _ _ _)

/-- A free order is some order. -/
theorem freeOrder_perm {α : Type} (k : Nat) (l : List α) : (freeOrder k l).Perm l := by
  induction l generalizing k with
  | nil => exact .refl _
  | cons a as ih => exact (insertAt_perm _ _ a).trans ((ih (k + 1)).cons a)

theorem Link.foldl_place (l : Link) (rs : List Reply) :
    (rs.foldl Link.place l).rate = l.rate ∧ (rs.foldl Link.place l).receiver = l.receiver ∧
      (rs.foldl Link.place l).placedSince l = rs := by
  have waiting : ∀ (rs : List Reply) (l : Link) (x : Reply × Nat), l.sending = some x →
      rs.foldl Link.place l = { l with transmit := l.transmit ++ rs } := by
    intro rs
    induction rs with
    | nil => intro l x _; simp
    | cons r rs ih =>
      intro l x h
      have hp : l.place r = { l with transmit := l.transmit ++ [r] } := by unfold Link.place; rw [h]
      rw [List.foldl_cons, hp, ih { l with transmit := l.transmit ++ [r] } x h]; simp
  cases h : l.sending with
  | some x => rw [waiting rs l x h]; simp [Link.placedSince, h]
  | none =>
    cases rs with
    | nil => simp [Link.placedSince, h]
    | cons r rs =>
      have hp : l.place r = { l with sending := some (r, l.rate) } := by unfold Link.place; rw [h]
      rw [List.foldl_cons, hp, waiting rs _ _ rfl]; simp [Link.placedSince, h]

/-- R169: the replies an event places stand on the line in some order. -/
theorem State.together_perm {f : State → State} {rs : List Reply} (h : (f s).link = rs.foldl Link.place s.link) :
    ∃ qs : List Reply, qs.Perm rs ∧ (s.together f).link = qs.foldl Link.place s.link := by
  obtain ⟨h1, h2, h3⟩ := s.link.foldl_place rs
  by_cases hn : rs.length ≤ 1
  · exact ⟨rs, .refl _, by rw [s.together_eq (by rw [h, h3]; exact hn), h]⟩
  · refine ⟨freeOrder (f s).free rs, freeOrder_perm _ _, ?_⟩
    unfold State.together; dsimp only
    rw [h, h3, if_neg hn]; dsimp only
    rw [h1, h2]

@[simp] theorem State.together_dispatcher (f : State → State) : (s.together f).dispatcher = (f s).dispatcher := by
  obtain ⟨l, n, h⟩ := s.together_only f; rw [h]
@[simp] theorem State.together_bays (f : State → State) : (s.together f).bays = (f s).bays := by
  obtain ⟨l, n, h⟩ := s.together_only f; rw [h]
@[simp] theorem State.together_ports (f : State → State) : (s.together f).ports = (f s).ports := by
  obtain ⟨l, n, h⟩ := s.together_only f; rw [h]
@[simp] theorem State.together_buses (f : State → State) : (s.together f).buses = (f s).buses := by
  obtain ⟨l, n, h⟩ := s.together_only f; rw [h]
@[simp] theorem State.together_digest (f : State → State) : (s.together f).digest = (f s).digest := by
  obtain ⟨l, n, h⟩ := s.together_only f; rw [h]
@[simp] theorem State.together_accounts (f : State → State) : (s.together f).accounts = (f s).accounts := by
  obtain ⟨l, n, h⟩ := s.together_only f; rw [h]
@[simp] theorem State.together_orders (f : State → State) : (s.together f).orders = (f s).orders := by
  obtain ⟨l, n, h⟩ := s.together_only f; rw [h]
@[simp] theorem State.together_refill (f : State → State) : (s.together f).refill = (f s).refill := by
  obtain ⟨l, n, h⟩ := s.together_only f; rw [h]
@[simp] theorem State.together_supply (f : State → State) : (s.together f).supply = (f s).supply := by
  obtain ⟨l, n, h⟩ := s.together_only f; rw [h]
@[simp] theorem State.together_journal (f : State → State) : (s.together f).journal = (f s).journal := by
  obtain ⟨l, n, h⟩ := s.together_only f; rw [h]
@[simp] theorem State.together_notice (f : State → State) : (s.together f).notice = (f s).notice := by
  obtain ⟨l, n, h⟩ := s.together_only f; rw [h]
@[simp] theorem State.together_presence (f : State → State) : (s.together f).presence = (f s).presence := by
  obtain ⟨l, n, h⟩ := s.together_only f; rw [h]
@[simp] theorem State.together_pending (f : State → State) : (s.together f).pending = (f s).pending := by
  obtain ⟨l, n, h⟩ := s.together_only f; rw [h]
@[simp] theorem State.bay_together (f : State → State) (b : Bay) : (s.together f).bay b = (f s).bay b := by
  obtain ⟨l, m, h⟩ := s.together_only f; rw [h]; rfl
@[simp] theorem State.account_together (f : State → State) (b : Bay) : (s.together f).account b = (f s).account b := by
  obtain ⟨l, m, h⟩ := s.together_only f; rw [h]; rfl
@[simp] theorem State.port_together (f : State → State) (b : Bay) : (s.together f).port b = (f s).port b := by
  obtain ⟨l, m, h⟩ := s.together_only f; rw [h]; rfl
@[simp] theorem State.bus_together (f : State → State) (n : Bus) : (s.together f).bus n = (f s).bus n := by
  obtain ⟨l, m, h⟩ := s.together_only f; rw [h]; rfl
@[simp] theorem State.context_together (f : State → State) (b : Bay) : (s.together f).context b = (f s).context b := by
  obtain ⟨l, m, h⟩ := s.together_only f; rw [h]; rfl
@[simp] theorem State.markOrders_together (f : State → State) (b : Bay) : (s.together f).markOrders b = (f s).markOrders b := by
  obtain ⟨l, m, h⟩ := s.together_only f; rw [h]; rfl
@[simp] theorem State.sector_together (f : State → State) (x : Sector) : (s.together f).sector x = (f s).sector x := by
  obtain ⟨l, m, h⟩ := s.together_only f; rw [h]; rfl
@[simp] theorem State.source_together (f : State → State) (k : NoticeKind) : (s.together f).source k = (f s).source k := by
  obtain ⟨l, m, h⟩ := s.together_only f; rw [h]; rfl
@[simp] theorem State.slot_together (f : State → State) (k : SlotNo) : (s.together f).slot k = (f s).slot k := by
  obtain ⟨l, m, h⟩ := s.together_only f; rw [h]; rfl
@[simp] theorem State.entry_together (f : State → State) (x : Serial) : (s.together f).entry x = (f s).entry x := by
  obtain ⟨l, m, h⟩ := s.together_only f; rw [h]; rfl
@[simp] theorem State.serialRead_together (f : State → State) (b : Bay) : (s.together f).serialRead b = (f s).serialRead b := by
  obtain ⟨l, m, h⟩ := s.together_only f; rw [h]; rfl

end Sys2Proof.Machine
end

