-- ==== Sys2Proof/Laws/Memory.lean ====
section
/-! SUPPORT. Flash memory: every operation keeps the canonical form, and what a read gives after a write or an erase. -/

namespace Sys2Proof.Machine

/-- The canonical form of a list with a head: the head is not blank, lies below every other entry, and the rest is canonical. -/
theorem Memory.wf_cons (c : Host.Cell) (m : Memory) :
    Memory.wf (c :: m) = true ↔ c.2 ≠ blankByte ∧ (∀ d ∈ m, c.1 < d.1) ∧ Memory.wf m = true := by
  induction m generalizing c with
  | nil => simp [Memory.wf]
  | cons d m ih =>
    simp only [Memory.wf, Bool.and_eq_true, bne_iff_ne, ne_eq, decide_eq_true_eq, List.mem_cons, forall_eq_or_imp]
    constructor
    · rintro ⟨⟨h1, h2⟩, h3⟩
      exact ⟨h1, ⟨h2, fun e he => lt_trans h2 ((ih d).1 h3 |>.2.1 e he)⟩, h3⟩
    · rintro ⟨h1, ⟨h2, -⟩, h3⟩
      exact ⟨⟨h1, h2⟩, h3⟩

/-- The addresses a write lists: those listed before, and the one written. -/
theorem Memory.mem_write {m : Memory} {a : Nat} {v : Byte} {d : Host.Cell} (h : d ∈ m.write a v) : d ∈ m ∨ d.1 = a := by
  induction m with
  | nil => simp only [Memory.write] at h; split at h <;> simp_all
  | cons c m ih =>
    simp only [Memory.write] at h
    split at h
    · split at h <;> simp_all
      rcases h with rfl | h <;> simp [*]
    · split at h
      · split at h <;> simp_all
        rcases h with rfl | h <;> simp [*]
      · rcases List.mem_cons.1 h with rfl | h
        · simp
        · rcases ih h with h | h <;> simp [h]

/-- A write keeps the canonical form. -/
theorem Memory.wf_write {m : Memory} (h : m.wf = true) (a : Nat) (v : Byte) : (m.write a v).wf = true := by
  induction m with
  | nil => simp only [Memory.write]; split <;> simp_all [Memory.wf]
  | cons c m ih =>
    obtain ⟨h1, h2, h3⟩ := (Memory.wf_cons c m).1 h
    simp only [Memory.write]
    split
    · rename_i hlt
      split
      · exact h
      · rename_i hv
        refine (Memory.wf_cons _ _).2 ⟨hv, ?_, h⟩
        intro d hd
        rcases List.mem_cons.1 hd with rfl | hd
        · exact hlt
        · exact lt_trans hlt (h2 d hd)
    · split
      · rename_i _ heq
        split
        · exact h3
        · rename_i hv
          exact (Memory.wf_cons _ _).2 ⟨hv, fun d hd => heq ▸ h2 d hd, h3⟩
      · refine (Memory.wf_cons _ _).2 ⟨h1, ?_, ih h3⟩
        intro d hd
        rcases Memory.mem_write hd with hd | hd
        · exact h2 d hd
        · omega

/-- Writing bytes keeps the canonical form. -/
theorem Memory.wf_writeBytes {m : Memory} (h : m.wf = true) (a : Nat) (vs : List Byte) : (m.writeBytes a vs).wf = true := by
  induction vs generalizing m a with
  | nil => exact h
  | cons v vs ih => exact ih (Memory.wf_write h a v) (a + 1)

/-- Dropping entries keeps the canonical form. -/
theorem Memory.wf_filter {m : Memory} (h : m.wf = true) (p : Host.Cell → Bool) : Memory.wf (m.filter p) = true := by
  induction m with
  | nil => rfl
  | cons c m ih =>
    obtain ⟨h1, h2, h3⟩ := (Memory.wf_cons c m).1 h
    simp only [List.filter_cons]
    split
    · exact (Memory.wf_cons _ _).2 ⟨h1, fun d hd => h2 d (List.mem_of_mem_filter hd), ih h3⟩
    · exact ih h3

/-- An erase keeps the canonical form. -/
theorem Memory.wf_eraseSector {m : Memory} (h : m.wf = true) (x : Sector) : (m.eraseSector x).wf = true :=
  Memory.wf_filter h _

/-- A read of the address at the head of a list. -/
theorem Memory.read_cons_same (c : Host.Cell) (m : Memory) : Memory.read (c :: m) c.1 = c.2 := by
  simp [Memory.read]

/-- A read of another address than the head's. -/
theorem Memory.read_cons_ne {c : Host.Cell} {m : Memory} {a : Nat} (h : c.1 ≠ a) : Memory.read (c :: m) a = Memory.read m a := by
  simp [Memory.read, h]

/-- An address below every listed one reads blank. -/
theorem Memory.read_below {m : Memory} {a : Nat} (h : ∀ d ∈ m, a < d.1) : m.read a = blankByte := by
  have : m.find? (fun c => c.1 = a) = none := by
    rw [List.find?_eq_none]; intro d hd; simpa using (h d hd).ne'
  simp [Memory.read, this]

/-- A run of addresses above every listed one reads blank. -/
theorem Memory.readBytes_above {m : Memory} {a : Nat} (h : ∀ d ∈ m, d.1 < a) (n : Nat) :
    m.readBytes a n = List.replicate n blankByte := by
  have key : ∀ i, m.read (a + i) = blankByte := fun i => by
    have : m.find? (fun c => c.1 = a + i) = none := by
      rw [List.find?_eq_none]; intro d hd; have := h d hd; simp; omega
    simp [Memory.read, this]
  simp only [Memory.readBytes, key]
  exact List.eq_replicate_iff.mpr ⟨by simp, by simp⟩

/-- A read of `n + k` bytes is a read of the first `n` and of the `k` after them. -/
theorem Memory.readBytes_add (m : Memory) (a n k : Nat) :
    m.readBytes a (n + k) = m.readBytes a n ++ m.readBytes (a + n) k := by
  simp [Memory.readBytes, List.range_add, Nat.add_assoc]

/-- A read of the written address gives the value written. -/
theorem Memory.read_write_same {m : Memory} (h : m.wf = true) (a : Nat) (v : Byte) : (m.write a v).read a = v := by
  induction m with
  | nil => simp only [Memory.write]; split <;> simp_all [Memory.read]
  | cons c m ih =>
    obtain ⟨h1, h2, h3⟩ := (Memory.wf_cons c m).1 h
    simp only [Memory.write]
    split
    · rename_i hlt
      split
      · rename_i hv
        subst hv
        refine Memory.read_below fun d hd => ?_
        rcases List.mem_cons.1 hd with rfl | hd
        · exact hlt
        · exact lt_trans hlt (h2 d hd)
      · exact Memory.read_cons_same (a, v) _
    · split
      · rename_i _ heq
        split
        · rename_i hv; subst hv; exact Memory.read_below fun d hd => heq ▸ h2 d hd
        · exact Memory.read_cons_same (a, v) _
      · rename_i h4 h5
        rw [Memory.read_cons_ne (by omega)]; exact ih h3

/-- A write leaves every other address alone. -/
theorem Memory.read_write_ne (m : Memory) {a b : Nat} (hab : b ≠ a) (v : Byte) : (m.write a v).read b = m.read b := by
  induction m with
  | nil => simp only [Memory.write]; split <;> simp [Memory.read, hab.symm]
  | cons c m ih =>
    simp only [Memory.write]
    split
    · split
      · rfl
      · exact Memory.read_cons_ne (by simpa using hab.symm)
    · split
      · rename_i _ heq
        have hc : c.1 ≠ b := heq ▸ hab.symm
        split
        · exact (Memory.read_cons_ne hc).symm
        · rw [Memory.read_cons_ne (by simpa using hab.symm), Memory.read_cons_ne hc]
      · by_cases hc : c.1 = b
        · subst hc; rw [Memory.read_cons_same, Memory.read_cons_same]
        · rw [Memory.read_cons_ne hc, Memory.read_cons_ne hc, ih]

/-- Writing bytes leaves every address outside them alone. -/
theorem Memory.read_writeBytes_outside (m : Memory) (vs : List Byte) {a b : Nat} (h : b < a ∨ a + vs.length ≤ b) :
    (m.writeBytes a vs).read b = m.read b := by
  induction vs generalizing m a with
  | nil => rfl
  | cons v vs ih =>
    simp only [List.length_cons] at h
    rw [Memory.writeBytes, ih _ (by omega), Memory.read_write_ne _ (by omega)]

/-- An erase leaves every address of another sector alone. -/
theorem Memory.read_eraseSector_other (m : Memory) {x : Sector} {a : Nat} (h : a / Config.sectorBytes ≠ x.val) :
    (m.eraseSector x).read a = m.read a := by
  induction m with
  | nil => rfl
  | cons c m ih =>
    simp only [Memory.eraseSector, List.filter_cons] at ih ⊢
    by_cases hc : c.1 = a
    · subst hc
      rw [if_pos (by simpa using h), Memory.read_cons_same, Memory.read_cons_same]
    · split
      · rw [Memory.read_cons_ne hc, Memory.read_cons_ne hc, ih]
      · rw [Memory.read_cons_ne hc, ih]

/-- An erase blanks every address of its sector. -/
theorem Memory.read_eraseSector_same (m : Memory) {x : Sector} {a : Nat} (h : a / Config.sectorBytes = x.val) :
    (m.eraseSector x).read a = blankByte := by
  have : (m.eraseSector x).find? (fun c => c.1 = a) = none := by
    rw [List.find?_eq_none]
    intro d hd
    have hp := (List.mem_filter.1 hd).2
    intro he
    have he : d.1 = a := by simpa using he
    rw [he, h] at hp
    simp at hp
  simp [Memory.read, this]

/-- The flash of a part as it leaves manufacture is canonical. -/
theorem Memory.wf_reset : State.reset.journal.flash.wf = true := rfl

end Sys2Proof.Machine
end

