-- ==== Sys2Proof/Laws/Edits.lean ====
section
/-! SUPPORT. What the shared operations can do to the state, said once: `Edit s t` holds when `t` comes from `s` by changes of the
kinds listed. No such change touches the queue of commands, the strap and lock floors, the enables, the mask or the queued
requests' tags; a bay posts a request only while none of its is in progress, and a bus is granted to a bay of its own, which
then has nothing posted; none breaks the flash memory's canonical form, and none gives an account or a history entry a residue
of a whole quantum. One lemma for each operation follows, in the form "if `Edit s x` then `Edit s (op x)`", so that they
compose. -/

namespace Sys2Proof.Machine

/-- The changes a shared operation is made of. -/
inductive Edit (s : State) : State → Prop where
  | refl : Edit s s
  | bays {x : State} (v : Vector BayRec 12) : Edit s x → Edit s { x with bays := v }
  /-- Residues stay below a quantum (R73). -/
  | accounts {x : State} (v : Vector Account 12)
      (h : ∀ b : Bay, v[b].residue = x.accounts[b].residue ∨ v[b].residue < Config.quantum) :
      Edit s x → Edit s { x with accounts := v }
  /-- A posted request may be withdrawn (R30). -/
  | ports {x : State} (v : Vector Port 12) (h : ∀ b : Bay, v[b].posted = x.ports[b].posted ∨ v[b].posted = none) :
      Edit s x → Edit s { x with ports := v }
  /-- A bay with nothing in progress on its bus posts a request (R22). -/
  | post {x : State} (b : Bay) (q : BusRequest) (h : x.inProgress b = false) :
      Edit s x → Edit s (x.modPort b fun p => { p with posted := some q })
  /-- A bus is granted to a bay of its own (R24, R28). -/
  | grant {x : State} (n : Bus) (b : Bay) (q : BusRequest) (h : busOf b = n) : Edit s x → Edit s (x.grantTo n b q)
  /-- A transaction may end, or change otherwise than in its bay; last granted stands (R28). -/
  | buses {x : State} (v : Vector BusState 3)
      (h : ∀ n : Bus, v[n].lastGranted = x.buses[n].lastGranted ∧
        ∀ t, v[n].current = some t → ∃ u, x.buses[n].current = some u ∧ u.bay = t.bay) :
      Edit s x → Edit s { x with buses := v }
  | digest {x : State} (d : Digest) : Edit s x → Edit s { x with digest := d }
  | orders {x : State} (v : Vector (List MarkOrder) 12) : Edit s x → Edit s { x with orders := v }
  /-- Debt residues stay below a quantum (R118). -/
  | table {x : State} (t : List HistoryEntry)
      (h : ∀ e ∈ t, e.debtResidue < Config.quantum ∨ ∃ f ∈ x.refill.table, f.debtResidue = e.debtResidue) :
      Edit s x → Edit s { x with refill := { x.refill with table := t } }
  | sequence {x : State} (n : Nat) : Edit s x → Edit s { x with refill := { x.refill with sequence := n } }
  | supply {x : State} (p : Supply) : Edit s x → Edit s { x with supply := p }
  | journal {x : State} (j : Journal) (h : j.flash = x.journal.flash) : Edit s x → Edit s { x with journal := j }
  /-- Flash is written or erased (R146, R147, R150), keeping its canonical form. -/
  | flash {x : State} (m : Memory) (h : x.journal.flash.wf = true → m.wf = true) :
      Edit s x → Edit s { x with journal := { x.journal with flash := m } }
  /-- A notice is raised (R156). -/
  | sources {x : State} (v : Vector Source 21) : Edit s x → Edit s { x with notice := { x.notice with sources := v } }
  /-- A fault record is written (R162). -/
  | fault {x : State} (r : FaultRecord) :
      Edit s x → Edit s { x with notice := { x.notice with faults := joinFaults x.notice.faults r } }
  /-- Queued requests change in what they wait for. -/
  | waits {x : State} (q : List QueueEntry) (h : q.map (·.tag) = x.dispatcher.queue.map (·.tag)) :
      Edit s x → Edit s { x with dispatcher := { x.dispatcher with queue := q } }
  | settings {x : State} (v : Settings) : Edit s x → Edit s { x with dispatcher := { x.dispatcher with settings := v } }
  | link {x : State} (l : Link) : Edit s x → Edit s { x with link := l }
  | presence {x : State} (v : Vector Bool 12) : Edit s x → Edit s { x with presence := v }
  | free {x : State} (n : Nat) : Edit s x → Edit s { x with free := n }

theorem Edit.trans {s t u : State} (h : Edit s t) (k : Edit t u) : Edit s u := by
  induction k with
  | refl => exact h
  | bays v _ ih => exact ih.bays v
  | accounts v hv _ ih => exact ih.accounts v hv
  | ports v hv _ ih => exact ih.ports v hv
  | post b q hq _ ih => exact ih.post b q hq
  | grant n b q hb _ ih => exact ih.grant n b q hb
  | buses v hv _ ih => exact ih.buses v hv
  | digest d _ ih => exact ih.digest d
  | orders v _ ih => exact ih.orders v
  | table t ht _ ih => exact ih.table t ht
  | sequence n _ ih => exact ih.sequence n
  | supply p _ ih => exact ih.supply p
  | journal j hj _ ih => exact ih.journal j hj
  | flash m hm _ ih => exact ih.flash m hm
  | sources v _ ih => exact ih.sources v
  | fault r _ ih => exact ih.fault r
  | waits q hq _ ih => exact ih.waits q hq
  | settings v _ ih => exact ih.settings v
  | link l _ ih => exact ih.link l
  | presence v _ ih => exact ih.presence v
  | free n _ ih => exact ih.free n

variable {s x : State}

/-! ### The primitives -/

theorem State.modBay_edit (b : Bay) (f : BayRec → BayRec) (h : Edit s x) : Edit s (x.modBay b f) := h.bays _

theorem State.modAccount_edit {b : Bay} {f : Account → Account}
    (hf : ∀ a, (f a).residue = a.residue ∨ (f a).residue < Config.quantum) (h : Edit s x) : Edit s (x.modAccount b f) := by
  refine h.accounts _ fun c => ?_
  by_cases hc : c = b
  · subst hc; rw [upd_get_same]; exact hf _
  · rw [upd_get_ne _ _ hc]; exact .inl rfl

theorem State.modPort_edit {b : Bay} {f : Port → Port} (hf : ∀ q, (f q).posted = q.posted ∨ (f q).posted = none)
    (h : Edit s x) : Edit s (x.modPort b f) := by
  refine h.ports _ fun c => ?_
  by_cases hc : c = b
  · subst hc; rw [upd_get_same]; exact hf _
  · rw [upd_get_ne _ _ hc]; exact .inl rfl

theorem State.modBus_edit {n : Bus} {f : BusState → BusState}
    (hf : ∀ u, (f u).lastGranted = u.lastGranted ∧ ∀ t, (f u).current = some t → ∃ v, u.current = some v ∧ v.bay = t.bay)
    (h : Edit s x) : Edit s (x.modBus n f) := by
  refine h.buses _ fun m => ?_
  by_cases hm : m = n
  · subst hm; rw [upd_get_same]; exact hf _
  · rw [upd_get_ne _ _ hm]; exact ⟨rfl, fun t ht => ⟨t, ht, rfl⟩⟩

theorem State.modOrders_edit (b : Bay) (f : List MarkOrder → List MarkOrder) (h : Edit s x) : Edit s (x.modOrders b f) :=
  h.orders _

theorem State.modDigest_edit (f : Digest → Digest) (h : Edit s x) : Edit s (x.modDigest f) := h.digest _

theorem State.modContext_edit (b : Bay) (f : Context → Context) (h : Edit s x) : Edit s (x.modContext b f) := h.digest _

theorem State.modJournal_edit {f : Journal → Journal} (hf : ∀ j, (f j).flash = j.flash) (h : Edit s x) :
    Edit s (x.modJournal f) := h.journal _ (hf _)

theorem State.modFlash_edit {f : Journal → Journal} (hf : ∀ j : Journal, j.flash.wf = true → (f j).flash.wf = true)
    (h : Edit s x) : Edit s (x.modJournal f) :=
  Edit.journal (x := { x with journal := { x.journal with flash := (f x.journal).flash } }) (f x.journal) rfl
    (h.flash (f x.journal).flash (hf _))

theorem State.modSupply_edit (f : Supply → Supply) (h : Edit s x) : Edit s (x.modSupply f) := h.supply _

theorem State.modLink_edit (f : Link → Link) (h : Edit s x) : Edit s (x.modLink f) := h.link _

theorem State.modSettings_edit (f : Settings → Settings) (h : Edit s x) : Edit s (x.modSettings f) := h.settings _

theorem State.raise_edit (k : NoticeKind) (b : Bay) (h : Edit s x) : Edit s (x.raise k b) := h.sources _

theorem State.raisePart_edit (k : NoticeKind) (h : Edit s x) : Edit s (x.raisePart k) := h.sources _

theorem State.raiseIf_edit (p : Bool) (k : NoticeKind) (b : Bay) (h : Edit s x) : Edit s (x.raiseIf p k b) := by
  unfold State.raiseIf; split
  · exact State.raise_edit k b h
  · exact h

theorem State.writeFault_edit (r : FaultRecord) (h : Edit s x) : Edit s (x.writeFault r) := h.fault r

theorem State.setPresence_edit (b : Bay) (p : Bool) (h : Edit s x) : Edit s (x.setPresence b p) := h.presence _

theorem State.joinSet_edit (y : Serial) (h : Edit s x) : Edit s (x.joinSet y) := by
  unfold State.joinSet; split
  · exact h
  · exact State.modJournal_edit (fun _ => rfl) h

theorem State.modEntry_edit {y : Serial} {f : HistoryEntry → HistoryEntry}
    (hf : ∀ e, (f e).debtResidue = e.debtResidue ∨ (f e).debtResidue < Config.quantum) (h : Edit s x) :
    Edit s (x.modEntry y f) := by
  refine h.table _ fun e he => ?_
  obtain ⟨g, hg, rfl⟩ := List.mem_map.1 he
  split
  · rcases hf g with k | k
    · exact .inr ⟨g, hg, k.symm⟩
    · exact .inl k
  · exact .inr ⟨g, hg, rfl⟩

theorem forBays_edit {f : Bay → State → State} (hf : ∀ b x, Edit s x → Edit s (f b x)) (h : Edit s x) :
    Edit s (forBays f x) := by
  unfold forBays
  generalize allBays = l
  induction l generalizing x with
  | nil => exact h
  | cons b l ih => exact ih (hf b x h)

/-! ### Replies and waits (R168, R169, R178) -/

theorem State.placeReply_edit (r : Reply) (h : Edit s x) : Edit s (x.placeReply r) := State.modLink_edit _ h

theorem State.together_edit {f : State → State} (h : Edit s (f x)) : Edit s (x.together f) := by
  unfold State.together; dsimp only; split
  · exact h
  · exact (h.link _).free _

theorem State.refuse_edit (k t : Byte) (r : ResultCode) (h : Edit s x) : Edit s (x.refuse k t r) := by
  unfold State.refuse; split
  · exact h
  · exact State.placeReply_edit _ h

theorem State.setWait_edit (t : Byte) (w : Wait) (h : Edit s x) : Edit s (x.setWait t w) := by
  refine h.waits _ ?_
  rw [List.map_map]
  refine List.map_congr_left fun e _ => ?_
  dsimp only [Function.comp]; split <;> rfl

theorem State.complete_edit (c : Completion) (h : Edit s x) : Edit s (x.complete c) := by
  unfold State.complete; split
  · exact h
  · exact State.placeReply_edit _ (State.setWait_edit _ _ h)

theorem foldl_complete_edit (cs : List Completion) (h : Edit s x) : Edit s (cs.foldl State.complete x) := by
  induction cs generalizing x with
  | nil => exact h
  | cons c cs ih => exact ih (State.complete_edit c h)

theorem State.completeAll_edit (cs : List Completion) (h : Edit s x) : Edit s (x.completeAll cs) := foldl_complete_edit cs h

theorem State.finish_edit' (t : Byte) (r : ResultCode) (p : List Byte) (h : Edit s x) :
    Edit s (x.complete { tag := t, result := r, payload := p }) := State.complete_edit _ h

theorem State.recordFlush_edit (b : Bay) (e : Ending) (h : Edit s x) : Edit s (x.recordFlush b e) := by
  unfold State.recordFlush; split
  · exact h
  · refine h.waits _ ?_
    rw [List.map_map]; rfl

theorem State.settleWaits_edit (b : Bay) (e : Ending) (h : Edit s x) : Edit s (x.settleWaits b e) :=
  State.completeAll_edit _ (State.recordFlush_edit b e h)

/-! ### Accounting (chapters 4 to 6) -/

theorem State.recomputeMode_edit (b : Bay) (h : Edit s x) : Edit s (x.recomputeMode b) := by
  unfold State.recomputeMode; dsimp only; split
  · exact h
  · split
    · exact State.settleWaits_edit _ _ (State.modAccount_edit (fun _ => .inl rfl) h)
    · exact State.modAccount_edit (fun _ => .inl rfl) h

theorem State.allowanceChecked_edit {b : Bay} {f : State → State} (h : Edit s (f x)) : Edit s (x.allowanceChecked b f) :=
  State.raiseIf_edit _ _ _ h

theorem State.recomputeModeEvent_edit (b : Bay) (h : Edit s x) : Edit s (x.recomputeModeEvent b) :=
  State.allowanceChecked_edit (State.recomputeMode_edit b h)

theorem State.recomputeAllModes_edit (h : Edit s x) : Edit s x.recomputeAllModes := by
  refine forBays_edit (fun b x h => ?_) h
  split
  · exact State.recomputeModeEvent_edit b h
  · exact h

theorem State.lowTest_edit (b : Bay) (h : Edit s x) : Edit s (x.lowTest b) := by
  unfold State.lowTest; dsimp only; split
  · exact State.raise_edit _ _ (State.modAccount_edit (fun _ => .inl rfl) h)
  · exact h

theorem Account.stage7_residue (a : Account) (n : Nat) : (a.stage7 n).residue = a.residue := by
  unfold Account.stage7; split <;> rfl

theorem State.layQuanta_edit (b : Bay) (n : Nat) (h : Edit s x) : Edit s (x.layQuanta b n) :=
  State.raiseIf_edit _ _ _ (State.modAccount_edit (fun a => .inl (a.stage7_residue n)) h)

theorem State.afterStage7_edit (b : Bay) (r : Nat) (h : Edit s x) : Edit s (x.afterStage7 b r) := by
  unfold State.afterStage7
  refine State.lowTest_edit b ?_
  split
  · exact h
  · exact State.recomputeMode_edit b h

theorem State.applyQuanta_edit (b : Bay) (n : Nat) (h : Edit s x) : Edit s (x.applyQuanta b n) :=
  State.allowanceChecked_edit (State.afterStage7_edit _ _ (State.layQuanta_edit b n h))

theorem residueOf_lt (n : Nat) : residueOf n < Config.quantum := Nat.mod_lt _ (by decide)

theorem State.setResidue_edit {b : Bay} {r : Nat} (hr : r < Config.quantum) (h : Edit s x) : Edit s (x.setResidue b r) :=
  State.modAccount_edit (fun _ => .inr hr) h

theorem State.addOverdraw_edit (b : Bay) (n : Nat) (h : Edit s x) : Edit s (x.addOverdraw b n) :=
  State.raiseIf_edit _ _ _ (State.modAccount_edit (fun _ => .inl rfl) h)

theorem State.takeDebt_edit (b : Bay) (n r : Nat) (h : Edit s x) : Edit s (x.takeDebt b n r) :=
  State.applyQuanta_edit _ _ (State.setResidue_edit (residueOf_lt _) h)

theorem State.accountEntry_edit (b : Bay) (e : UsageEntry) (h : Edit s x) : Edit s (x.accountEntry b e) :=
  State.applyQuanta_edit _ _ (State.setResidue_edit (residueOf_lt _) h)

theorem quantum_pos : 0 < Config.quantum := by decide

theorem State.openAccount_edit (b : Bay) (m : Metering) (q r : Nat) (h : Edit s x) : Edit s (x.openAccount b m q r) := by
  unfold State.openAccount; split
  · dsimp only
    refine State.raiseIf_edit _ _ _ ?_
    split
    · exact State.takeDebt_edit _ _ _ (State.modAccount_edit (fun _ => .inr quantum_pos) h)
    · exact State.addOverdraw_edit _ _ (State.modAccount_edit (fun _ => .inr quantum_pos) h)
  · exact h

/-! ### The Refill Watch (chapter 7) -/

theorem filterTable_edit (p : HistoryEntry → Bool) (h : Edit s x) :
    Edit s (x.modRefill fun r => { r with table := r.table.filter p }) :=
  h.table _ fun e he => .inr ⟨e, (List.mem_filter.1 he).1, rfl⟩

theorem sequence_edit (f : Nat → Nat) (h : Edit s x) : Edit s (x.modRefill fun r => { r with sequence := f r.sequence }) :=
  h.sequence _

theorem mem_insertEntry {e f : HistoryEntry} {t : List HistoryEntry} (h : f ∈ insertEntry e t) : f = e ∨ f ∈ t := by
  induction t with
  | nil => exact .inl (List.mem_singleton.1 h)
  | cons g t ih =>
    unfold insertEntry at h; split at h
    · exact List.mem_cons.1 h
    · rcases List.mem_cons.1 h with rfl | h
      · exact .inr (List.mem_cons_self ..)
      · exact (ih h).imp_right (List.mem_cons_of_mem _)

theorem insertTable_edit {e : List HistoryEntry → HistoryEntry} (he : ∀ t, (e t).debtResidue < Config.quantum) (h : Edit s x) :
    Edit s (x.modRefill fun r => { r with table := insertEntry (e r.table) r.table }) := by
  refine h.table _ fun f hf => ?_
  rcases mem_insertEntry hf with rfl | hf
  · exact .inl (he _)
  · exact .inr ⟨f, hf, rfl⟩

theorem State.evict_edit (e : HistoryEntry) (h : Edit s x) : Edit s (x.evict e) := by
  unfold State.evict; dsimp only; split
  · exact State.raisePart_edit _ (State.raisePart_edit _ (State.joinSet_edit _ (filterTable_edit _ h)))
  · exact State.raisePart_edit _ (State.joinSet_edit _ (filterTable_edit _ h))

theorem State.makeRoom_edit (h : Edit s x) : Edit s x.makeRoom := by
  unfold State.makeRoom; split
  · exact h
  · split
    · exact State.evict_edit _ h
    · exact h

theorem State.createEntry_edit (y : Serial) (c : BitVec 16) (h : Edit s x) : Edit s (x.createEntry y c) :=
  State.joinSet_edit _ (insertTable_edit (e := fun t => HistoryEntry.created (lowestFree t) y c) (fun _ => quantum_pos)
    (State.makeRoom_edit h))

theorem State.modEntryJournaled_edit {y : Serial} {f : HistoryEntry → HistoryEntry}
    (hf : ∀ e, (f e).debtResidue = e.debtResidue ∨ (f e).debtResidue < Config.quantum) (h : Edit s x) :
    Edit s (x.modEntryJournaled y f) := by
  unfold State.modEntryJournaled; split
  · split
    · exact h
    · exact State.joinSet_edit _ (State.modEntry_edit hf h)
  · exact h

theorem State.unbind_edit (b : Bay) (h : Edit s x) : Edit s (x.unbind b) := by
  unfold State.unbind; split
  · exact h
  · exact State.modBay_edit _ _ (State.joinSet_edit _ (State.modEntry_edit (fun _ => .inl rfl) h))

theorem HistoryEntry.resolve_debtResidue (e : HistoryEntry) (u : Nat) : (e.resolve u).debtResidue = e.debtResidue := by
  unfold HistoryEntry.resolve; split <;> rfl

theorem State.handover_edit (b : Bay) (i : IdentityPage) (u : UsagePage) (p : Bool) (h : Edit s x) :
    Edit s (x.handover b i u p) := by
  have start : Edit s (if (x.entry i.serial).isSome then x else x.createEntry i.serial i.classCode) := by
    split
    · exact h
    · exact State.createEntry_edit _ _ h
  have mid : ∀ y : State, Edit s y → Edit s (((y.modEntry i.serial fun e =>
      { (e.resolve u.counter) with classCode := i.classCode, lastSeen := y.refill.sequence }).modRefill fun r =>
      { r with sequence := nextSequence r.sequence }).joinSet i.serial) := fun y hy =>
    State.joinSet_edit _ (sequence_edit nextSequence (State.modEntry_edit (fun e => .inl (e.resolve_debtResidue _)) hy))
  have bind : ∀ (z : State) (p : Bool), Edit s z → Edit s (if p then
      (z.modEntry i.serial fun e => { e with bay := some b }).modBay b fun r => { r with serial := some i.serial } else z) := by
    intro z p hz; split
    · exact State.modBay_edit _ _ (State.modEntry_edit (fun _ => .inl rfl) hz)
    · exact hz
  unfold State.handover; dsimp only; split
  · exact bind _ _ (mid _ start)
  · exact State.modEntryJournaled_edit (fun _ => .inl rfl) (bind _ _ (mid _ start))

theorem State.handIdentity_edit (b : Bay) (i : IdentityPage) (u : UsagePage) (p : Bool) (h : Edit s x) :
    Edit s (x.handIdentity b i u p) := by
  unfold State.handIdentity; split
  · split
    · exact State.handover_edit _ _ _ _ h
    · exact State.handover_edit _ _ _ _ (State.unbind_edit _ h)
  · exact State.handover_edit _ _ _ _ h

theorem State.recordVerdict_edit (y : Serial) (v : Verdict) (u : UsagePage) (h : Edit s x) : Edit s (x.recordVerdict y v u) :=
  State.modEntryJournaled_edit (fun _ => .inl rfl) h

theorem State.clearDebt_edit (y : Serial) (h : Edit s x) : Edit s (x.clearDebt y) :=
  State.modEntryJournaled_edit (fun _ => .inr quantum_pos) h

theorem State.openWithDebt_edit (b : Bay) (y : Serial) (m : Metering) (h : Edit s x) : Edit s (x.openWithDebt b y m) :=
  State.openAccount_edit _ _ _ _ (State.clearDebt_edit _ h)

theorem State.handLiability_edit (y : Serial) (l : Liability) (h : Edit s x) : Edit s (x.handLiability y l) := by
  unfold State.handLiability
  refine State.joinSet_edit _ ?_
  split
  · split
    · exact State.takeDebt_edit _ _ _ h
    · exact State.addOverdraw_edit _ _ h
  · exact State.modEntry_edit (fun _ => .inr (residueOf_lt _)) h

theorem State.closeWithLiability_edit (b : Bay) (h : Edit s x) : Edit s (x.closeWithLiability b) := by
  unfold State.closeWithLiability; dsimp only; split
  · split
    · exact State.handLiability_edit _ _ (State.modAccount_edit (fun _ => .inr quantum_pos) h)
    · exact State.modAccount_edit (fun _ => .inr quantum_pos) h
  · exact h

theorem State.closeEmpty_edit (b : Bay) (h : Edit s x) : Edit s (x.closeEmpty b) := by
  unfold State.closeEmpty; dsimp only; split
  · exact State.joinSet_edit _ (State.modAccount_edit (fun _ => .inr quantum_pos) h)
  · exact State.modAccount_edit (fun _ => .inr quantum_pos) h

theorem State.orderMark_edit (b : Bay) (m : Mark) (h : Edit s x) : Edit s (x.orderMark b m) := h.orders _

theorem State.reportCounter_edit (y : Serial) (c : Nat) (h : Edit s x) : Edit s (x.reportCounter y c) :=
  State.joinSet_edit _ (State.modEntry_edit (fun _ => .inl rfl) h)

theorem State.reportUsedUp_edit (y : Serial) (h : Edit s x) : Edit s (x.reportUsedUp y) :=
  State.joinSet_edit _ (State.modEntry_edit (fun _ => .inl rfl) h)

theorem State.reportMark_edit (y : Serial) (m : Mark) (h : Edit s x) : Edit s (x.reportMark y m) :=
  State.joinSet_edit _ (State.modEntry_edit (fun _ => .inl rfl) h)

theorem State.reportRefill_edit (b : Bay) (y : Serial) (h : Edit s x) : Edit s (x.reportRefill b y) :=
  State.raise_edit _ _ (State.orderMark_edit _ _ (State.joinSet_edit _ (State.modEntry_edit (fun _ => .inl rfl) h)))

theorem State.reportFor_edit {b : Bay} {f : State → Serial → State} (hf : ∀ y, Edit s x → Edit s (f x y)) (h : Edit s x) :
    Edit s (x.reportFor b f) := by
  unfold State.reportFor; split
  · exact hf _ h
  · exact h

end Sys2Proof.Machine
end

