-- ==== Sys2Proof/Laws/EditsBays.lean ====
section
/-! SUPPORT. `Edit` for the operations of the bays, the exchanges, the commits and the transactions' ends (chapters 1, 2, 3
and 5). -/

namespace Sys2Proof.Machine

variable {s x : State}

/-! ### Bays -/

theorem State.closeContext_edit (b : Bay) (h : Edit s x) : Edit s (x.closeContext b) := h.digest _

theorem State.withdrawPosted_edit (b : Bay) (h : Edit s x) : Edit s (x.withdrawPosted b) :=
  State.modPort_edit (fun _ => .inr rfl) h

theorem State.endTransaction_edit (n : Bus) (r : Bool) (h : Edit s x) : Edit s (x.endTransaction n r) :=
  State.modBus_edit (fun _ => ⟨rfl, fun _ ht => nomatch ht⟩) h

theorem State.abortTransaction_edit (b : Bay) (h : Edit s x) : Edit s (x.abortTransaction b) := by
  unfold State.abortTransaction; split
  · split
    · exact State.endTransaction_edit _ _ (State.writeFault_edit _ h)
    · exact h
  · exact h

/-- A change of the current transaction that keeps its bay. -/
theorem mapCurrent_bay {c : Option Transaction} {f : Transaction → Transaction} (hf : ∀ t, (f t).bay = t.bay) {t : Transaction}
    (h : c.map f = some t) : ∃ u, c = some u ∧ u.bay = t.bay := by
  cases c with
  | none => exact nomatch h
  | some u => exact ⟨u, rfl, by rw [← Option.some.inj h, hf]⟩

theorem State.discardTransaction_edit (b : Bay) (p : BusOp → Bool) (h : Edit s x) : Edit s (x.discardTransaction b p) :=
  State.modBus_edit (fun _ => ⟨rfl, fun _ ht => mapCurrent_bay (fun t => by split <;> rfl) ht⟩) h

theorem State.endChallenge_edit (b : Bay) (h : Edit s x) : Edit s (x.endChallenge b) := by
  refine State.discardTransaction_edit _ _ (State.modBay_edit _ _ (State.modPort_edit (fun q => ?_)
    (State.modDigest_edit _ (State.closeContext_edit _ h))))
  dsimp only
  cases q.posted with
  | none => exact .inl rfl
  | some r => by_cases hr : r.op.isChallenge = true <;> simp [hr]

theorem State.enterIdentifying_edit (b : Bay) (h : Edit s x) : Edit s (x.enterIdentifying b) := h.bays _

theorem State.enterSettling_edit (b : Bay) (h : Edit s x) : Edit s (x.enterSettling b) := h.bays _

theorem State.enterAdmitted_edit (b : Bay) (h : Edit s x) : Edit s (x.enterAdmitted b) := State.raise_edit _ _ (h.bays _)

theorem State.leaveTo_edit (b : Bay) (t : BayState) (r : RejectReason) (h : Edit s x) : Edit s (x.leaveTo b t r) :=
  State.modBay_edit _ _ (State.endChallenge_edit b h)

theorem State.rejectBay_edit (b : Bay) (r : RejectReason) (h : Edit s x) : Edit s (x.rejectBay b r) :=
  State.settleWaits_edit _ _ (State.raise_edit _ _ (State.closeWithLiability_edit _ (State.leaveTo_edit _ _ _ h)))

theorem State.faultBay_edit (b : Bay) (h : Edit s x) : Edit s (x.faultBay b) :=
  State.settleWaits_edit _ _ (State.raise_edit _ _ (State.leaveTo_edit _ _ _ h))

theorem State.faultIdentification_edit (b : Bay) (h : Edit s x) : Edit s (x.faultIdentification b) :=
  State.faultBay_edit _ (State.unbind_edit _ (State.modBay_edit _ _ h))

theorem State.setVerdict_edit (b : Bay) (v : Verdict) (h : Edit s x) : Edit s (x.setVerdict b v) := h.bays _

theorem State.actOnVerdict_edit (b : Bay) (y : Serial) (u : UsagePage) (v : Verdict) (h : Edit s x) :
    Edit s (x.actOnVerdict b y u v) := by
  have order : Edit s ((if u.refill then x else x.orderMark b .refill).raise .refill b) := by
    split
    · exact State.raise_edit _ _ h
    · exact State.raise_edit _ _ (State.orderMark_edit _ _ h)
  unfold State.actOnVerdict; split
  · exact State.openWithDebt_edit _ _ _ (State.enterAdmitted_edit _ h)
  · dsimp only; split
    · exact State.openWithDebt_edit _ _ _ (State.enterAdmitted_edit _ order)
    · exact State.leaveTo_edit _ _ _ order
  · exact State.rejectBay_edit _ _ h
  · exact State.rejectBay_edit _ _ h
  · exact h

theorem State.takeVerdict_edit (b : Bay) (h : Edit s x) : Edit s (x.takeVerdict b) := by
  unfold State.takeVerdict; split
  · exact State.actOnVerdict_edit _ _ _ _ (State.setVerdict_edit _ _ (State.recordVerdict_edit _ _ _ h))
  · exact h

theorem State.admitQuarantined_edit (b : Bay) (h : Edit s x) : Edit s (x.admitQuarantined b) := by
  unfold State.admitQuarantined; split
  · split
    · split
      · exact State.rejectBay_edit _ _ (State.setVerdict_edit _ _ (State.modEntryJournaled_edit (fun _ => .inl rfl) h))
      · exact State.openWithDebt_edit _ _ _ (State.enterAdmitted_edit _ h)
    · exact h
  · exact h

theorem State.enterReleased_edit (b : Bay) (e : Ending) (h : Edit s x) : Edit s (x.enterReleased b e) :=
  State.settleWaits_edit _ _ (State.raise_edit _ _ (State.leaveTo_edit _ _ _ h))

theorem State.closeDrained_edit (b : Bay) (h : Edit s x) : Edit s (x.closeDrained b) :=
  State.enterReleased_edit _ _ (State.closeEmpty_edit _ h)

theorem State.roundRelease_edit (b : Bay) (h : Edit s x) : Edit s (x.roundRelease b) := by
  unfold State.roundRelease; dsimp only; split
  · have k := State.applyQuanta_edit b 1 (State.setResidue_edit quantum_pos h (b := b))
    split
    · exact State.closeDrained_edit _ k
    · exact k
  · split
    · exact State.closeDrained_edit _ h
    · exact h

theorem State.dropPostedAdvance_edit (b : Bay) (h : Edit s x) : Edit s (x.dropPostedAdvance b) := by
  unfold State.dropPostedAdvance; split
  · split
    · exact State.modAccount_edit (fun _ => .inl rfl) h
    · exact h
  · exact h

theorem State.withdraw_edit (b : Bay) (h : Edit s x) : Edit s (x.withdraw b) :=
  State.settleWaits_edit _ _ (State.raise_edit _ _ (State.modOrders_edit _ _ (State.modBay_edit _ _ (State.unbind_edit _
    (State.closeWithLiability_edit _ (State.modDigest_edit _ (State.closeContext_edit _ (State.withdrawPosted_edit _
      (State.dropPostedAdvance_edit _ (State.abortTransaction_edit _ h))))))))))

theorem State.resetBay_edit (b : Bay) (h : Edit s x) : Edit s (x.resetBay b) :=
  State.enterIdentifying_edit _ (State.modOrders_edit _ _ (State.modBay_edit _ _ (State.closeWithLiability_edit _
    (State.modDigest_edit _ (State.closeContext_edit _ (State.discardTransaction_edit _ _ (State.withdrawPosted_edit _ h)))))))

theorem State.samplePresence_edit (h : Edit s x) : Edit s x.samplePresence := by
  refine forBays_edit (fun b x h => ?_) h
  split
  · exact State.enterSettling_edit _ h
  · exact h

theorem State.identityRead_edit (b : Bay) (i : IdentityPage) (h : Edit s x) : Edit s (x.identityRead b i) := by
  unfold State.identityRead; dsimp only
  split
  · exact State.modBay_edit _ _ (State.modBay_edit _ _ h)
  · split <;> exact State.modBay_edit _ _ (State.modBay_edit _ _ h)

theorem State.usageRead_edit (b : Bay) (u : UsagePage) (h : Edit s x) : Edit s (x.usageRead b u) := by
  unfold State.usageRead; dsimp only
  split <;> split <;> first
    | exact State.modBay_edit _ _ (State.handIdentity_edit _ _ _ _ (State.modBay_edit _ _ h))
    | exact State.modBay_edit _ _ (State.modBay_edit _ _ h)
    | exact State.rejectBay_edit _ _ (State.handIdentity_edit _ _ _ _ (State.modBay_edit _ _ h))
    | exact State.rejectBay_edit _ _ (State.modBay_edit _ _ h)

theorem State.pageRead_edit (b : Bay) (p : PageContent) (h : Edit s x) : Edit s (x.pageRead b p) := by
  unfold State.pageRead; split
  · exact State.identityRead_edit _ _ h
  · exact State.modBay_edit _ _ h
  · exact State.usageRead_edit _ _ h

theorem State.pageFailed_edit (b : Bay) (h : Edit s x) : Edit s (x.pageFailed b) := by
  unfold State.pageFailed; dsimp only; split
  · exact State.modBay_edit _ _ h
  · exact State.faultIdentification_edit _ (State.modBay_edit _ _ h)

/-! ### Exchanges -/

theorem countCommFailure_edit (b : Bay) (h : Edit s x) :
    Edit s (let y := x.modBay b fun r => { r with commFailures := r.commFailures + 1 }
      if (y.bay b).commFailures < 3 then y else y.faultBay b) := by
  dsimp only; split
  · exact State.modBay_edit _ _ h
  · exact State.faultBay_edit _ (State.modBay_edit _ _ h)

theorem State.admissionOutcome_edit (b : Bay) (o : ExchangeOutcome) (h : Edit s x) : Edit s (x.admissionOutcome b o) := by
  unfold State.admissionOutcome; split
  · exact State.takeVerdict_edit _ h
  · exact State.rejectBay_edit _ _ (State.modBay_edit _ _ h)
  · exact State.rejectBay_edit _ _ h
  · exact countCommFailure_edit b h

theorem State.rechallengeMatched_edit (b : Bay) (h : Edit s x) : Edit s (x.rechallengeMatched b) :=
  State.settleWaits_edit _ _ (State.modBay_edit _ _ h)

theorem State.rechallengeOutcome_edit (b : Bay) (o : ExchangeOutcome) (h : Edit s x) : Edit s (x.rechallengeOutcome b o) := by
  unfold State.rechallengeOutcome; split
  · exact State.rechallengeMatched_edit _ h
  · dsimp only; split
    · exact State.modBay_edit _ _ h
    · exact State.rejectBay_edit _ _ (State.modBay_edit _ _ h)
  · exact State.rejectBay_edit _ _ h
  · exact countCommFailure_edit b h

theorem State.judgeExchange_edit (b : Bay) (h : Edit s x) : Edit s (x.judgeExchange b) := by
  unfold State.judgeExchange; dsimp only
  have k : Edit s (((x.closeContext b).modDigest fun d => d.dropJob b).modBay b fun r => { r with fetchDue := false }) :=
    State.modBay_edit _ _ (State.modDigest_edit _ (State.closeContext_edit _ h))
  split
  · exact State.admissionOutcome_edit _ _ k
  · exact State.rechallengeOutcome_edit _ _ k
  · exact k

theorem State.judgeIfComplete_edit (b : Bay) (h : Edit s x) : Edit s (x.judgeIfComplete b) := by
  unfold State.judgeIfComplete; split
  · exact State.judgeExchange_edit _ h
  · exact h

theorem State.pump_edit (n : Nat) (h : Edit s x) : Edit s (x.pump n) := by
  induction n generalizing x with
  | zero => exact h
  | succ n ih =>
    unfold State.pump; split
    · exact h
    · split
      · exact h
      · dsimp only; split
        · exact State.modDigest_edit _ (State.modContext_edit _ _ (State.modDigest_edit _ h))
        · exact ih (State.judgeIfComplete_edit _ (State.modContext_edit _ _ (State.modDigest_edit _ h)))

theorem State.runEngine_edit (h : Edit s x) : Edit s x.runEngine := State.pump_edit _ h

theorem State.engineDone_edit (h : Edit s x) : Edit s x.engineDone := by
  unfold State.engineDone; split
  · exact h
  · dsimp only
    refine State.runEngine_edit ?_
    split
    · exact State.modDigest_edit _ h
    · exact State.judgeIfComplete_edit _ (State.modContext_edit _ _ (State.modDigest_edit _ h))

theorem State.startRechallenge_edit (b : Bay) (h : Edit s x) : Edit s (x.startRechallenge b) := by
  unfold State.startRechallenge; split
  · dsimp only; split
    · exact State.modBay_edit _ _ h
    · exact State.rejectBay_edit _ _ (State.modBay_edit _ _ h)
  · exact h

/-! ### Commits -/

theorem State.usedUp_edit (b : Bay) (h : Edit s x) : Edit s (x.usedUp b) :=
  State.raise_edit _ _ (State.reportFor_edit (fun y h => State.reportUsedUp_edit y h) (State.orderMark_edit _ _ h))

theorem State.pendingDrained_edit (b : Bay) (h : Edit s x) : Edit s (x.pendingDrained b) := by
  unfold State.pendingDrained; dsimp only
  have k : Edit s ((x.modAccount b fun a => { a with drain := { a.drain with flush := false } }).settleWaits b
      { flush := some .drained }) := State.settleWaits_edit _ _ (State.modAccount_edit (fun _ => .inl rfl) h)
  split
  · exact State.roundRelease_edit _ k
  · exact k

theorem State.commitSuccess_edit (b : Bay) (h : Edit s x) : Edit s (x.commitSuccess b) := by
  refine State.allowanceChecked_edit ?_
  dsimp only
  have k : Edit s ((x.modAccount b fun a =>
      { a with committed := a.target, pending := a.pending - a.inFlight, inFlight := 0, commitState := .idle,
               failures := 0 }).reportFor b fun s y => s.reportCounter y (x.account b).target) :=
    State.reportFor_edit (fun y h => State.reportCounter_edit y _ h) (State.modAccount_edit (fun _ => .inl rfl) h)
  split <;> split <;> first
    | exact State.pendingDrained_edit _ (State.usedUp_edit _ k)
    | exact State.usedUp_edit _ k
    | exact State.pendingDrained_edit _ k
    | exact k

theorem State.countFailure_edit (b : Bay) (h : Edit s x) : Edit s (x.countFailure b) := by
  unfold State.countFailure; dsimp only; split
  · exact State.raise_edit _ _ (State.modAccount_edit (fun _ => .inl rfl) h)
  · exact State.faultBay_edit _ (State.modAccount_edit (fun _ => .inl rfl) h)

theorem State.commitNotLanded_edit (b : Bay) (h : Edit s x) : Edit s (x.commitNotLanded b) :=
  State.allowanceChecked_edit (State.countFailure_edit _ h)

theorem State.commitInDoubt_edit (b : Bay) (h : Edit s x) : Edit s (x.commitInDoubt b) :=
  State.modAccount_edit (fun _ => .inl rfl) h

theorem State.commitPartly_edit (b : Bay) (c : Nat) (h : Edit s x) : Edit s (x.commitPartly b c) :=
  State.allowanceChecked_edit (State.countFailure_edit _ (State.reportFor_edit (fun y h => State.reportCounter_edit y _ h)
    (State.modAccount_edit (fun _ => .inl rfl) h)))

theorem State.commitRollback_edit (b : Bay) (c : Nat) (h : Edit s x) : Edit s (x.commitRollback b c) :=
  State.rejectBay_edit _ _ (State.reportFor_edit (fun y h => State.reportCounter_edit y _ h) h)

theorem State.resolveCheck_edit (b : Bay) (c : Nat) (h : Edit s x) : Edit s (x.resolveCheck b c) := by
  unfold State.resolveCheck; dsimp only
  split
  · exact State.commitSuccess_edit _ h
  · split
    · exact State.commitNotLanded_edit _ h
    · split
      · exact State.commitPartly_edit _ _ h
      · exact State.commitRollback_edit _ _ h

theorem State.advanceFailed_edit (b : Bay) (p : Phase) (h : Edit s x) : Edit s (x.advanceFailed b p) := by
  unfold State.advanceFailed; split
  · split
    · exact State.commitInDoubt_edit _ h
    · exact State.commitNotLanded_edit _ h
  · exact h

theorem State.advanceDone_edit (b : Bay) (h : Edit s x) : Edit s (x.advanceDone b) := by
  unfold State.advanceDone; split
  · exact State.commitSuccess_edit _ h
  · exact h

theorem State.checkDone_edit (b : Bay) (c : Nat) (h : Edit s x) : Edit s (x.checkDone b c) := by
  unfold State.checkDone; split
  · exact State.resolveCheck_edit _ _ h
  · exact h

theorem State.checkFailed_edit (b : Bay) (h : Edit s x) : Edit s (x.checkFailed b) := by
  unfold State.checkFailed; split
  · exact State.faultBay_edit _ h
  · exact h

theorem State.markDone_edit (b : Bay) (m : Mark) (h : Edit s x) : Edit s (x.markDone b m) :=
  State.reportFor_edit (fun y h => State.reportMark_edit y _ h) (State.modOrders_edit _ _ h)

theorem State.markFailed_edit (b : Bay) (m : Mark) (h : Edit s x) : Edit s (x.markFailed b m) := h.orders _

/-! ### The end of a phase -/

theorem State.deliverFailure_edit (t : Transaction) (h : Edit s x) : Edit s (x.deliverFailure t) := by
  unfold State.deliverFailure; split
  · exact State.pageFailed_edit _ h
  · exact State.judgeExchange_edit _ (State.modContext_edit _ _ h)
  · exact State.judgeExchange_edit _ (State.modContext_edit _ _ h)
  · exact State.advanceFailed_edit _ _ h
  · exact State.markFailed_edit _ _ h
  · exact State.checkFailed_edit _ h

theorem State.clearFetchCount_edit (b : Bay) (h : Edit s x) : Edit s (x.clearFetchCount b) :=
  State.modPort_edit (fun _ => .inl rfl) h

theorem State.failTransaction_edit (n : Bus) (t : Transaction) (e : ErrorKind) (h : Edit s x) :
    Edit s (x.failTransaction n t e) := by
  unfold State.failTransaction; dsimp only
  have k := State.endTransaction_edit n t.request.op.rests (State.writeFault_edit (x.transactionFault n t e) h)
  split <;> split <;> first
    | exact State.clearFetchCount_edit _ k
    | exact State.deliverFailure_edit _ (State.clearFetchCount_edit _ k)
    | exact k
    | exact State.deliverFailure_edit _ k

theorem State.setAnswerTimer_edit (b : Bay) (ms : Nat) (h : Edit s x) : Edit s (x.setAnswerTimer b ms) :=
  State.modPort_edit (fun _ => .inl rfl) h

theorem State.startAnswerTimer_edit (b : Bay) (h : Edit s x) : Edit s (x.startAnswerTimer b) := by
  unfold State.startAnswerTimer; split
  · exact State.setAnswerTimer_edit _ _ h
  · exact State.setAnswerTimer_edit _ _ (h.free _)

theorem State.completeTransaction_edit {n : Bus} {t : Transaction} {f : State → State}
    (hf : ∀ y, Edit s y → Edit s (f y)) (h : Edit s x) : Edit s (x.completeTransaction n t f) := by
  unfold State.completeTransaction; dsimp only; split
  · exact State.endTransaction_edit _ _ h
  · exact hf _ (State.endTransaction_edit _ _ h)

theorem State.setPhase_edit (n : Bus) (p : Phase) (h : Edit s x) : Edit s (x.setPhase n p) :=
  State.modBus_edit (fun _ => ⟨rfl, fun _ ht => mapCurrent_bay (f := fun t => { t with phase := p }) (fun _ => rfl) ht⟩) h

theorem State.takeAnswer_edit (b : Bay) (a : BitVec 128) (h : Edit s x) : Edit s (x.takeAnswer b a) :=
  State.judgeIfComplete_edit _ (State.modContext_edit _ _ h)

theorem State.identityReply_edit (n : Bus) (f : List Byte) (h : Edit s x) : Edit s (x.identityReply n f) := by
  unfold State.identityReply; split
  · exact h
  · split
    · dsimp only; split
      · exact State.completeTransaction_edit (fun _ h => State.pageRead_edit _ _ h) h
      · exact State.failTransaction_edit _ _ _ h
      · exact h
    · exact h

theorem State.nonceReply_edit (n : Bus) (f : List Byte) (h : Edit s x) : Edit s (x.nonceReply n f) := by
  unfold State.nonceReply; split
  · exact h
  · split
    · exact State.completeTransaction_edit (fun _ h => State.modBay_edit _ _ h)
        (State.startAnswerTimer_edit _ (State.clearFetchCount_edit _ h))
    · exact State.failTransaction_edit _ _ _ h
    · exact h

theorem State.answerTimerExpired_edit (b : Bay) (h : Edit s x) : Edit s (x.answerTimerExpired b) := by
  unfold State.answerTimerExpired; split
  · exact State.modBay_edit _ _ (State.modPort_edit (fun _ => .inl rfl) h)
  · exact h

theorem State.fetchReply_edit (n : Bus) (f : List Byte) (h : Edit s x) : Edit s (x.fetchReply n f) := by
  unfold State.fetchReply; split
  · exact h
  · split
    · exact State.completeTransaction_edit (fun _ h => State.takeAnswer_edit _ _ h) (State.clearFetchCount_edit _ h)
    · exact State.failTransaction_edit _ _ _ h
    · split
      · exact State.endTransaction_edit _ _ (State.setAnswerTimer_edit _ _ h)
      · exact State.failTransaction_edit _ _ _ h

theorem State.armReplied_edit (n : Bus) (f : List Byte) (h : Edit s x) : Edit s (x.armReplied n f) := by
  unfold State.armReplied; split
  · exact h
  · split
    · exact State.setPhase_edit _ _ h
    · exact State.failTransaction_edit _ _ _ h
    · exact h

theorem State.loadReplied_edit (n : Bus) (f : List Byte) (h : Edit s x) : Edit s (x.loadReplied n f) := by
  unfold State.loadReplied; split
  · exact h
  · split
    · exact State.setPhase_edit _ _ h
    · exact State.failTransaction_edit _ _ _ h
    · exact h

theorem State.burnEnded_edit (n : Bus) (h : Edit s x) : Edit s (x.burnEnded n) := by
  unfold State.burnEnded; split
  · exact h
  · exact State.setPhase_edit _ _ h

theorem State.confirmReplied_edit (n : Bus) (f : List Byte) (h : Edit s x) : Edit s (x.confirmReplied n f) := by
  unfold State.confirmReplied; split
  · exact h
  · split
    · split
      · split
        · exact State.completeTransaction_edit (fun _ h => State.advanceDone_edit _ h) h
        · exact State.failTransaction_edit _ _ _ h
      · exact State.failTransaction_edit _ _ _ h
      · exact h
    · exact h

theorem State.markReplied_edit (n : Bus) (f : List Byte) (h : Edit s x) : Edit s (x.markReplied n f) := by
  unfold State.markReplied; split
  · exact h
  · split
    · split
      · exact State.completeTransaction_edit (fun _ h => State.markDone_edit _ _ h) h
      · exact State.failTransaction_edit _ _ _ h
      · exact h
    · exact h

theorem State.checkReplied_edit (n : Bus) (f : List Byte) (h : Edit s x) : Edit s (x.checkReplied n f) := by
  unfold State.checkReplied; split
  · exact h
  · split
    · exact State.completeTransaction_edit (fun _ h => State.checkDone_edit _ _ h) h
    · exact State.failTransaction_edit _ _ _ h
    · exact h

theorem State.replyTimedOut_edit (n : Bus) (h : Edit s x) : Edit s (x.replyTimedOut n) := by
  unfold State.replyTimedOut; split
  · exact h
  · split
    · exact h
    · exact State.failTransaction_edit _ _ _ h

theorem State.restExpired_edit (n : Bus) (h : Edit s x) : Edit s (x.restExpired n) :=
  State.modBus_edit (fun _ => ⟨rfl, fun t ht => ⟨t, ht, rfl⟩⟩) h

/-! ### The bay's choice and the grant (R22, R28) -/

theorem busOf_bayOn (n : Bus) (k : Nat) : busOf (bayOn n k) = n :=
  Fin.ext (by show (4 * n.val + k % 4) / 4 = n.val; omega)

theorem State.largestPending_mem {l : List Bay} {b : Bay} (h : x.largestPending l = some b) : b ∈ l := by
  induction l generalizing b with
  | nil => exact nomatch h
  | cons c l ih =>
    unfold State.largestPending at h
    split at h
    · rw [← Option.some.inj h]; exact List.mem_cons_self ..
    · rename_i d hd
      split at h <;> rw [← Option.some.inj h]
      · exact List.mem_cons_of_mem _ (ih hd)
      · exact List.mem_cons_self ..

/-- The arbiter chooses a bay of its own bus (R24, R29). -/
theorem State.choice_bus {n : Bus} {b : Bay} (h : x.choice n = some b) : busOf b = n := by
  have key : b ∈ busBays n ∨ b ∈ turnOrder n (x.bus n).lastGranted := by
    unfold State.choice at h
    split at h
    · exact nomatch h
    · split at h
      · exact .inl (List.mem_filter.1 (State.largestPending_mem h)).1
      · exact .inr (List.mem_of_find?_eq_some h)
  simp only [busBays, turnOrder, List.mem_cons, List.not_mem_nil, or_false] at key
  rcases key with (h | h | h | h) | (h | h | h | h) <;> rw [h, busOf_bayOn]

theorem State.grant_edit (n : Bus) (h : Edit s x) : Edit s (x.grant n) := by
  unfold State.grant; split
  · split
    · rename_i hc
      split
      · exact h.grant n _ _ (State.choice_bus hc)
      · exact h
    · exact h
  · exact h

/-- A grant is made to a bay with a request posted, so it begins no transaction of another (R28). -/
theorem State.grant_inProgress {n : Bus} {b : Bay} (hp : (x.port b).posted = none) (h : x.inProgress b = false) :
    (x.grant n).inProgress b = false := by
  unfold State.grant; split
  · split
    · rename_i c _
      split
      · rename_i q hq
        have hc : c ≠ b := fun e => by rw [e, hp] at hq; exact nomatch hq
        unfold State.inProgress State.selected State.grantTo
        simp only [State.bus_modBus, State.bus_modPort]
        by_cases hn : busOf b = n
        · rw [if_pos hn]; exact decide_eq_false hc
        · rw [if_neg hn]; exact h
      · exact h
    · exact h
  · exact h

theorem State.postRequest_edit {b : Bay} {op : BusOp} {k : Nat} (hp : x.inProgress b = false) (h : Edit s x) :
    Edit s (x.postRequest b op k) := h.post b _ hp

theorem State.startCommit_edit {b : Bay} (hp : x.inProgress b = false) (h : Edit s x) : Edit s (x.startCommit b) := by
  refine Edit.post (x := x.modAccount b fun a =>
    { a with inFlight := a.pending, target := (x.account b).committed + (x.account b).pending, commitState := .advance }) b _ hp ?_
  exact State.modAccount_edit (fun _ => .inl rfl) h

theorem State.openExchange_edit {b : Bay} (k : ChallengeKind) (hp : x.inProgress b = false) (h : Edit s x) :
    Edit s (x.openExchange b k) := by
  unfold State.openExchange; dsimp only; split
  · exact h
  · exact State.runEngine_edit (Edit.post b _ hp (State.modContext_edit _ _ (State.modDigest_edit _ (h.free _))))

theorem State.post_edit {b : Bay} (d : Due) (hp : x.inProgress b = false) (h : Edit s x) : Edit s (x.post b d) := by
  cases d with
  | checkRead => exact State.postRequest_edit hp h
  | commit => exact State.startCommit_edit hp h
  | mark m n => exact State.postRequest_edit hp h
  | readPage p => exact State.postRequest_edit hp h
  | openExchange k => exact State.openExchange_edit k hp h
  | fetch k => exact State.postRequest_edit (x := x.modBay b fun r => { r with fetchDue := false }) hp (State.modBay_edit _ _ h)

theorem State.chooseNext_edit (b : Bay) (h : Edit s x) : Edit s (x.chooseNext b) := by
  unfold State.chooseNext; split
  · exact h
  · rename_i hf
    simp only [Bool.or_eq_true, not_or, Bool.not_eq_true, Option.isSome_eq_false_iff, Option.isNone_iff_eq_none] at hf
    split
    · exact State.post_edit _ (State.grant_inProgress hf.1 hf.2) (State.grant_edit _ h)
    · exact h

theorem State.examine_edit (b : Bay) (h : Edit s x) : Edit s (x.examine b) := by
  unfold State.examine; split
  · exact State.chooseNext_edit b h
  · exact h

end Sys2Proof.Machine
end

