-- ==== Sys2Proof/Laws/EditsParts.lean ====
section
/-! SUPPORT. `Edit` for the operations of the slots, the supply, the journal and the requests (chapters 3, 8 and 11). Of the
requests, SET-MASK, FAULTS and LOCK-LEVEL stand apart: they write the mask and the enables, clear the fault queue and raise the
lock floor. -/

namespace Sys2Proof.Machine

variable {s x : State}

/-! ### The journal -/

theorem State.degrade_edit (h : Edit s x) : Edit s x.degrade := by
  unfold State.degrade; split
  · exact h
  · exact State.raisePart_edit _ (State.modJournal_edit (fun _ => rfl) h)

theorem Journal.beginErase_wf (j : Journal) (y : Sector) (h : j.flash.wf = true) : (j.beginErase y).flash.wf = true :=
  Memory.wf_writeBytes h _ _

theorem State.compactionErase_edit (y : Sector) (h : Edit s x) : Edit s (x.compactionErase y) := by
  unfold State.compactionErase; split
  · exact State.modJournal_edit (fun _ => rfl) h
  · exact State.modFlash_edit (fun j hj => j.beginErase_wf y hj) h

theorem State.compact_edit (y : Sector) (h : Edit s x) : Edit s (x.compact y) := by
  unfold State.compact; split
  · exact State.compactionErase_edit _ h
  · exact State.modJournal_edit (fun _ => rfl) h

theorem State.checkCompaction_edit (h : Edit s x) : Edit s x.checkCompaction := by
  unfold State.checkCompaction; split
  · split
    · exact State.compact_edit _ h
    · exact h
  · exact h

theorem Journal.fillActive_flash (j : Journal) : j.fillActive.flash = j.flash := by
  unfold Journal.fillActive; split <;> rfl

theorem State.openFor_edit (source : RecordSource) (r : JournalRecord) (h : Edit s x) :
    Edit s (State.placeRecord.openFor source r x).1 := by
  unfold State.placeRecord.openFor; split
  · split
    · exact State.modJournal_edit (f := fun j => j.openSector _ source r) (fun _ => rfl) h
    · exact h
  · exact h

theorem State.placeRecord_edit (source : RecordSource) (r : JournalRecord) (h : Edit s x) :
    Edit s (x.placeRecord source r).1 := by
  unfold State.placeRecord; split
  · split
    · exact State.modJournal_edit (f := fun j => { j with writer := .record _ source r, copyStale := false }) (fun _ => rfl) h
    · exact State.openFor_edit _ _ (State.modJournal_edit Journal.fillActive_flash h)
  · exact State.openFor_edit _ _ h

theorem State.takeFromSet_edit (h : Edit s x) : Edit s x.takeFromSet := by
  unfold State.takeFromSet; split
  · exact h
  · dsimp only; split
    · exact State.modJournal_edit (fun _ => rfl) (State.placeRecord_edit _ _ h)
    · exact State.placeRecord_edit _ _ h

theorem State.takeCopy_edit (y : Serial) (h : Edit s x) : Edit s (x.takeCopy y) := by
  unfold State.takeCopy; dsimp only; split
  · exact State.placeRecord_edit _ _ h
  · exact State.degrade_edit (State.placeRecord_edit _ _ h)

theorem State.takeRecord_edit (h : Edit s x) : Edit s x.takeRecord := by
  unfold State.takeRecord; split
  · split
    · exact State.takeFromSet_edit h
    · split
      · exact State.takeCopy_edit _ (State.modJournal_edit (fun _ => rfl) h)
      · dsimp only; split
        · exact State.takeFromSet_edit (State.compactionErase_edit _ h)
        · exact State.compactionErase_edit _ h
      · split
        · exact State.takeFromSet_edit h
        · exact h
  · exact h

theorem State.copyWritten_edit (y : Serial) (h : Edit s x) : Edit s (x.copyWritten y) := by
  have k : Edit s (if x.journal.copyStale then x else x.modJournal fun j => j.leaveSet y) := by
    split
    · exact h
    · exact State.modJournal_edit (fun _ => rfl) h
  unfold State.copyWritten; dsimp only
  split
  · split
    · exact State.compactionErase_edit _ k
    · exact State.modJournal_edit (fun _ => rfl) k
  · exact k

theorem State.recordWritten_edit (y : Sector) (source : RecordSource) (r : JournalRecord) (h : Edit s x) :
    Edit s (x.recordWritten y source r) := by
  have k : Edit s (x.modJournal fun j =>
      { j with
        flash := j.flash.writeBytes (sectorAddr y j.writeOffset) r.bytes
        room := j.room - r.size
        failures := 0
        newest := noteNewest j.newest r.serial y
        writer := .idle }) := State.modFlash_edit (fun _ hj => Memory.wf_writeBytes hj _ _) h
  unfold State.recordWritten; dsimp only; split
  · exact k
  · exact State.copyWritten_edit _ k

theorem Journal.returnSerial_flash (j : Journal) (source : RecordSource) (y : Serial) :
    (j.returnSerial source y).flash = j.flash := by
  unfold Journal.returnSerial; split <;> rfl

theorem State.writeFailed_edit (y : Sector) (off : Nat) (source : RecordSource) (r : JournalRecord) (k : TransactionKind)
    (p : Phase) (e : ErrorKind) (h : Edit s x) : Edit s (x.writeFailed y off source r k p e) := by
  have m := State.modJournal_edit (f := fun j =>
    { ((j.modSector y fun z => { z with state := .full, torn := some off }).returnSerial source r.serial) with
      room := 0, failures := x.journal.failures + 1, writer := .idle })
    (fun j => (Journal.returnSerial_flash _ source r.serial)) (State.writeFault_edit
      (writeFaultRecord k p e (x.journal.failures + 1) y) h)
  unfold State.writeFailed; dsimp only; split
  · exact m
  · exact State.degrade_edit m

theorem State.recordWriteEnd_edit (e : Option ErrorKind) (h : Edit s x) : Edit s (x.recordWriteEnd e) := by
  unfold State.recordWriteEnd; split
  · split
    · exact State.recordWritten_edit _ _ _ h
    · exact State.writeFailed_edit _ _ _ _ _ _ _ h
  · exact h

/-- R147, R149: what the writer does once the header of the sector stands. -/
theorem State.writerAfterHeader_cases (s : State) (y : Sector) (source : RecordSource) (r : JournalRecord) :
    (source = .appendSet ∧ s.writerAfterHeader y source r = .record y .appendSet r) ∨
    (source = .compactionCopy ∧ (s.entry r.serial).isSome = true ∧
      s.writerAfterHeader y source r = .record y .compactionCopy (s.recordOf r.serial)) ∨
    (source = .compactionCopy ∧ s.entry r.serial = none ∧ s.writerAfterHeader y source r = .idle) := by
  cases source <;> cases h : s.entry r.serial <;> simp [State.writerAfterHeader, State.waitingRecord, h]

theorem State.headerWriteEnd_edit (e : Option ErrorKind) (h : Edit s x) : Edit s (x.headerWriteEnd e) := by
  unfold State.headerWriteEnd; split
  · split
    · exact State.checkCompaction_edit (State.modFlash_edit (fun _ hj => Memory.wf_writeBytes hj _ _) h)
    · exact State.checkCompaction_edit (State.writeFailed_edit _ _ _ _ _ _ _ h)
  · exact h

theorem State.eraseSucceeded_edit (y : Sector) (h : Edit s x) : Edit s (x.eraseSucceeded y) :=
  State.checkCompaction_edit (State.modFlash_edit (fun _ hj => Memory.wf_eraseSector hj y) h)

theorem State.eraseFailed_edit (y : Sector) (e : ErrorKind) (m : Bool) (h : Edit s x) : Edit s (x.eraseFailed y e m) := by
  have k := State.modFlash_edit (f := fun j =>
    let flash := if m = true then j.flash else j.flash.writeBytes (sectorAddr y 0) (beBytes 4 ((x.sector y).erasing.getD 0).toNat)
    (({ j with flash := flash }.modSector y fun r => { r with state := .failed, erasing := none }).forgetSector y).eraseEnded y)
    (fun j hj => by
      show Memory.wf (if m = true then _ else _) = true
      split
      · exact hj
      · exact Memory.wf_writeBytes hj _ _) (State.writeFault_edit (writeFaultRecord .erase .erase e 1 y) h)
  unfold State.eraseFailed
  extract_lets mk z w
  split
  · exact State.degrade_edit k
  · exact State.checkCompaction_edit k

theorem State.saveBurst_edit (h : Edit s x) : Edit s x.saveBurst := by
  unfold State.saveBurst; split
  · exact h
  · exact State.modJournal_edit (fun _ => rfl) h

theorem State.journalReturn_edit (h : Edit s x) : Edit s x.journalReturn := by
  unfold State.journalReturn; dsimp only
  refine State.checkCompaction_edit ?_
  split <;> split <;> first
    | exact State.compactionErase_edit _ (State.degrade_edit h)
    | exact State.compactionErase_edit _ h
    | exact State.degrade_edit h
    | exact h

theorem State.startupComplete_edit (h : Edit s x) : Edit s x.startupComplete := by
  unfold State.startupComplete; dsimp only
  refine State.modJournal_edit (fun _ => rfl) ?_
  split
  · exact State.degrade_edit h
  · exact h

theorem State.startErases_edit (h : Edit s x) : Edit s x.startErases := by
  unfold State.startErases
  refine State.checkCompaction_edit ?_
  generalize allSectors = l
  induction l generalizing x with
  | nil => exact h
  | cons y l ih =>
    refine ih (x := if (x.sector y).state = .invalid then x.modJournal fun j => j.beginErase y else x) ?_
    split
    · exact State.modFlash_edit (fun j hj => j.beginErase_wf y hj) h
    · exact h

/-- Every debt part a record carries is below a quantum when it is read (R181). -/
def JournalRecord.debtSound : JournalRecord → Prop
  | .history r => (r.debt.getD (0, 0)).2 < Config.quantum
  | .evict _ => True

theorem readDebtPart_sound {p : List Byte} {d : Nat × Nat} (h : readDebtPart p = some d) : d.2 < Config.quantum := by
  unfold readDebtPart at h; split at h
  · rename_i k; rw [← Option.some.inj h]; exact k
  · exact nomatch h

theorem readParts_sound {n : Nat} {d : List Byte} {q : Option (Nat × Nat) × Option Doubt} (h : readParts n d = some q) :
    (q.1.getD (0, 0)).2 < Config.quantum := by
  unfold readParts at h; dsimp only at h
  split at h
  · rw [← Option.some.inj h]; exact quantum_pos
  · split at h
    · split at h
      · obtain ⟨r, hr, rfl⟩ := Option.map_eq_some_iff.1 h
        exact readDebtPart_sound hr
      · split at h
        · rw [← Option.some.inj h]; exact quantum_pos
        · exact nomatch h
    · split at h
      · obtain ⟨r, hr, rfl⟩ := Option.map_eq_some_iff.1 h
        exact readDebtPart_sound hr
      · exact nomatch h

theorem readRecord_sound {l : List Byte} {q : JournalRecord × Nat} (h : readRecord l = some q) : q.1.debtSound := by
  unfold readRecord at h; dsimp only at h
  split at h
  · exact nomatch h
  · split at h
    · exact nomatch h
    · split at h
      · rw [← Option.some.inj h]; trivial
      · obtain ⟨r, hr, rfl⟩ := Option.map_eq_some_iff.1 h
        exact readParts_sound hr

theorem readRecords_sound (n : Nat) (l : List Byte) : ∀ r ∈ readRecords n l, r.debtSound := by
  induction n generalizing l with
  | zero => intro r hr; exact nomatch hr
  | succ n ih =>
    intro r hr
    unfold readRecords at hr; split at hr
    · rename_i q hq
      rcases List.mem_cons.1 hr with rfl | hr
      · exact readRecord_sound hq
      · exact ih _ r hr
    · exact nomatch hr

theorem State.replayRecord_edit (y : Sector) (r : JournalRecord) (hr : r.debtSound) (h : Edit s x) :
    Edit s (x.replayRecord y r) := by
  have k : Edit s (x.modJournal fun j => { j with newest := noteNewest j.newest r.serial y }) :=
    State.modJournal_edit (fun _ => rfl) h
  unfold State.replayRecord; dsimp only; split
  · rename_i g
    split
    · exact State.modEntry_edit (fun _ => .inr hr) k
    · exact insertTable_edit (e := fun t => g.toEntry (lowestFree t)) (fun _ => hr) (State.makeRoom_edit k)
  · exact filterTable_edit _ k

theorem State.replaySector_edit (y : Sector) (h : Edit s x) : Edit s (x.replaySector y) := by
  unfold State.replaySector
  have hl := readRecords_sound (Config.recordArea / 12) (x.journal.area y)
  unfold Journal.recordsIn
  generalize readRecords (Config.recordArea / 12) (x.journal.area y) = l at hl
  induction l generalizing x with
  | nil => exact h
  | cons r l ih =>
    exact ih (State.replayRecord_edit y r (hl r (List.mem_cons_self ..)) h) fun q hq => hl q (List.mem_cons_of_mem _ hq)

theorem State.replay_edit (h : Edit s x) : Edit s x.replay := by
  unfold State.replay; dsimp only
  refine Edit.sequence _ ?_
  generalize x.journal.fullByAge = l
  induction l generalizing x with
  | nil => exact h
  | cons y l ih => exact ih (State.replaySector_edit y h)

/-! ### The supply -/

theorem State.leaveStarting_edit (h : Edit s x) : Edit s x.leaveStarting := by
  unfold State.leaveStarting; split
  · exact State.samplePresence_edit (State.modSupply_edit _ h)
  · exact h

theorem State.setSaveDemand_edit (p : Account → Bool) (v : Bool) (h : Edit s x) : Edit s (x.setSaveDemand p v) := by
  refine h.accounts (x.accounts.map fun a => if p a then { a with drain := { a.drain with save := v } } else a)
    fun b => .inl ?_
  rw [Fin.getElem_fin, Vector.getElem_map]; split <;> rfl

theorem State.enterSave_edit (n : Nat) (h : Edit s x) : Edit s (x.enterSave n) :=
  State.raisePart_edit _ (State.setSaveDemand_edit _ _ (State.saveBurst_edit (State.modSupply_edit _ h)))

theorem State.warnAsserted_edit (h : Edit s x) : Edit s x.warnAsserted := by
  unfold State.warnAsserted; dsimp only; split
  · exact State.enterSave_edit _ (State.modSupply_edit _ h)
  · exact State.modSupply_edit _ h

theorem State.critAsserted_edit (h : Edit s x) : Edit s x.critAsserted := by
  unfold State.critAsserted; dsimp only
  have k : Edit s (x.modSupply fun p => { p with crit := true }) := State.modSupply_edit _ h
  split
  · split
    · exact k
    · exact State.enterSave_edit _ k
  · exact State.modSupply_edit _ k
  · exact k
  · exact k

theorem State.releaseSettled_edit (h : Edit s x) : Edit s x.releaseSettled := by
  refine forBays_edit (fun b x h => ?_) h
  split
  · exact State.enterIdentifying_edit _ h
  · exact h

theorem State.returnToNormal_edit (h : Edit s x) : Edit s x.returnToNormal := by
  unfold State.returnToNormal
  extract_lets y z w
  have k : Edit s z := State.releaseSettled_edit (State.setSaveDemand_edit _ _ (State.modSupply_edit _ h))
  exact State.journalReturn_edit (k.bays _)

theorem State.lineDeasserted_edit (l : SupplyLine) (h : Edit s x) : Edit s (x.lineDeasserted l) := by
  unfold State.lineDeasserted
  extract_lets y
  have k : Edit s y := State.modSupply_edit _ h
  split
  · exact State.leaveStarting_edit k
  · split
    · exact State.returnToNormal_edit k
    · exact k

theorem State.deadlineExpired_edit (h : Edit s x) : Edit s x.deadlineExpired := by
  unfold State.deadlineExpired; split
  · exact State.raisePart_edit _ (State.modSupply_edit _ h)
  · exact h

/-! ### The slots -/

theorem State.modSlot_edit (k : SlotNo) (f : Slot → Slot) (h : Edit s x) : Edit s (x.modSlot k f) := h.digest _

theorem State.modStore_edit (k : SlotNo) (f : Slot → Slot) (h : Edit s x) : Edit s (x.modStore k f) := h.digest _

theorem State.beginStoreWrite_edit (e : QueueEntry) (k : SlotNo) (w : SlotWriteKind) (h : Edit s x) :
    Edit s (x.beginStoreWrite e k w) := State.setWait_edit _ _ (State.modDigest_edit _ h)

theorem State.takeSlotLoad_edit (e : QueueEntry) (h : Edit s x) : Edit s (x.takeSlotLoad e) := by
  unfold State.takeSlotLoad; split
  · exact State.complete_edit _ h
  · dsimp only; split
    · exact State.complete_edit _ h
    · split
      · exact State.complete_edit _ h
      · exact State.beginStoreWrite_edit _ _ _ h

theorem State.revokeBay_edit (k : SlotNo) (b : Bay) (h : Edit s x) : Edit s (x.revokeBay k b) := by
  unfold State.revokeBay; split
  · split
    · exact State.modBay_edit _ _ h
    · split
      · exact State.rejectBay_edit _ _ h
      · exact h
  · exact h

theorem State.takeSlotRevoke_edit (e : QueueEntry) (h : Edit s x) : Edit s (x.takeSlotRevoke e) := by
  unfold State.takeSlotRevoke; split
  · exact State.complete_edit _ h
  · split
    · exact State.complete_edit _ h
    · exact State.beginStoreWrite_edit _ _ _ (State.modSlot_edit _ _ h)
    · exact forBays_edit (fun b x h => State.revokeBay_edit _ b h) (State.beginStoreWrite_edit _ _ _ (State.modSlot_edit _ _ h))

theorem State.takeSlotRequests_edit (n : Nat) (h : Edit s x) : Edit s (x.takeSlotRequests n) := by
  induction n generalizing x with
  | zero => exact h
  | succ n ih =>
    unfold State.takeSlotRequests; split
    · exact h
    · split
      · exact h
      · refine ih ?_
        split
        · exact State.takeSlotLoad_edit _ h
        · exact State.takeSlotRevoke_edit _ h

theorem State.runSlots_edit (h : Edit s x) : Edit s x.runSlots := State.takeSlotRequests_edit _ h

theorem State.storeWriteEnded_edit (r : StoreResult) (h : Edit s x) : Edit s (x.storeWriteEnded r) := by
  unfold State.storeWriteEnded; split
  · exact h
  · exact State.runSlots_edit (State.complete_edit _ (State.modDigest_edit _ (State.modStore_edit _ _ (State.modSlot_edit _ _ h))))

theorem State.slotTableRead_edit (h : Edit s x) : Edit s x.slotTableRead := by
  unfold State.slotTableRead; split
  · exact h
  · exact State.leaveStarting_edit (State.completeAll_edit _ (State.modDigest_edit _ h))

/-! ### The requests -/

theorem State.finish_edit (e : QueueEntry) (r : ResultCode) (p : List Byte) (h : Edit s x) : Edit s (x.finish e r p) :=
  State.complete_edit _ h

theorem State.forBay_edit (e : QueueEntry) {f : Bay → State} (hf : ∀ b, Edit s (f b)) (h : Edit s x) : Edit s (x.forBay e f) := by
  unfold State.forBay; split
  · exact hf _
  · exact State.finish_edit _ _ _ h

theorem foldl_acknowledge_edit (l : List (NoticeKind × BitVec 12)) (h : Edit s x) :
    Edit s (l.foldl (fun s a => s.acknowledge a.1 a.2) x) := by
  induction l generalizing x with
  | nil => exact h
  | cons a l ih => exact ih (x := x.acknowledge a.1 a.2) (h.sources _)

theorem State.serveAckNotices_edit (e : QueueEntry) (h : Edit s x) : Edit s (x.serveAckNotices e) := by
  unfold State.serveAckNotices; split
  · exact State.finish_edit _ _ _ h
  · split
    · exact State.finish_edit _ _ _ h
    · exact State.finish_edit _ _ _ (foldl_acknowledge_edit _ h)

theorem State.usageEntry_edit (b : Bay) (e : UsageEntry) (h : Edit s x) : Edit s (x.usageEntry b e).1 := by
  have k := State.examine_edit b (State.accountEntry_edit b e h)
  unfold State.usageEntry
  generalize (x.accountEntry b e).examine b = y at k
  split
  · exact k
  · exact State.raiseIf_edit _ _ _ h

theorem State.usageEntries_edit (l : List (Bay × UsageEntry)) (h : Edit s x) : Edit s (x.usageEntries l).1 := by
  induction l generalizing x with
  | nil => exact h
  | cons a l ih =>
    obtain ⟨b, e⟩ := a
    unfold State.usageEntries
    exact ih (State.usageEntry_edit b e h)

theorem State.serveUsage_edit (e : QueueEntry) (h : Edit s x) : Edit s (x.serveUsage e) := by
  unfold State.serveUsage; split
  · exact State.finish_edit _ _ _ h
  · split
    · exact State.finish_edit _ _ _ h
    · exact State.finish_edit _ _ _ (State.usageEntries_edit _ h)

theorem State.confirmAccept_edit (b : Bay) (h : Edit s x) : Edit s (x.confirmAccept b) :=
  State.setVerdict_edit _ _ (State.reportFor_edit (fun y h => State.reportRefill_edit b y h)
    (State.modAccount_edit (fun _ => .inr quantum_pos) h))

theorem State.confirmRefuse_edit (b : Bay) (h : Edit s x) : Edit s (x.confirmRefuse b) :=
  State.settleWaits_edit _ _ (State.leaveTo_edit _ _ _ (State.setVerdict_edit _ _
    (State.reportFor_edit (fun y h => State.reportRefill_edit b y h) (State.closeEmpty_edit _ h))))

theorem State.sensePair_edit (b : Bay) (r : Reading) (h : Edit s x) : Edit s (x.sensePair b r).1 := by
  have k : Edit s (x.sensePresent b).1 := by
    unfold State.sensePresent; dsimp only; split
    · exact State.modAccount_edit (fun _ => .inl rfl) h
    · split
      · exact State.confirmAccept_edit _ h
      · exact State.confirmRefuse_edit _ h
  unfold State.sensePair; dsimp only; split
  · cases r with
    | present => exact k
    | dry | low =>
      dsimp only; split
      · exact State.modAccount_edit (fun _ => .inl rfl) h
      · exact h
  · split
    · exact State.raise_edit _ _ h
    · exact h

theorem State.sensePairs_edit (l : List (Bay × Reading)) (h : Edit s x) : Edit s (x.sensePairs l).1 := by
  induction l generalizing x with
  | nil => exact h
  | cons a l ih =>
    obtain ⟨b, r⟩ := a
    unfold State.sensePairs
    exact ih (State.sensePair_edit b r h)

theorem State.serveLevelSense_edit (e : QueueEntry) (h : Edit s x) : Edit s (x.serveLevelSense e) := by
  unfold State.serveLevelSense; split
  · exact State.finish_edit _ _ _ h
  · split
    · exact State.finish_edit _ _ _ h
    · exact State.finish_edit _ _ _ (State.sensePairs_edit _ h)

theorem State.flushBay_edit (e : QueueEntry) (b : Bay) (h : Edit s x) : Edit s (x.flushBay e b) := by
  unfold State.flushBay; split
  · exact State.finish_edit _ _ _ h
  · exact State.finish_edit _ _ _ h
  · exact State.setWait_edit _ _ (State.modAccount_edit (fun _ => .inl rfl) h)

theorem State.flushEvery_edit (e : QueueEntry) (h : Edit s x) : Edit s (x.flushEvery e) := by
  have k : Edit s { x with accounts := Vector.ofFn fun b =>
      if (flushOutcomeAt (x.bay b) (x.account b)).isNone then
        { x.account b with drain := { (x.account b).drain with flush := true } } else x.account b } := by
    refine h.accounts _ fun b => .inl ?_
    rw [Fin.getElem_fin, Vector.getElem_ofFn]; split <;> rfl
  unfold State.flushEvery; dsimp only; split
  · exact State.finish_edit _ _ _ k
  · exact State.setWait_edit _ _ k

theorem State.serveFlush_edit (e : QueueEntry) (h : Edit s x) : Edit s (x.serveFlush e) := by
  unfold State.serveFlush; split
  · exact State.flushEvery_edit _ h
  · exact State.forBay_edit e (fun b => State.flushBay_edit e b h) h

theorem State.releaseMetered_edit (e : QueueEntry) (b : Bay) (h : Edit s x) : Edit s (x.releaseMetered e b) := by
  unfold State.releaseMetered; dsimp only
  refine State.roundRelease_edit _ ?_
  split
  · exact State.settleWaits_edit _ _ (State.endChallenge_edit _ (State.setWait_edit _ _
      (State.modAccount_edit (fun _ => .inl rfl) (State.modBay_edit _ _ h))))
  · exact State.setWait_edit _ _ (State.modAccount_edit (fun _ => .inl rfl) (State.modBay_edit _ _ h))

theorem State.releaseBay_edit (e : QueueEntry) (b : Bay) (h : Edit s x) : Edit s (x.releaseBay e b) := by
  unfold State.releaseBay; split
  · split
    · exact State.releaseMetered_edit _ _ h
    · exact State.finish_edit _ _ _ (State.enterReleased_edit _ _ (State.closeEmpty_edit _ h))
  · exact State.finish_edit _ _ _ (State.enterReleased_edit _ _ h)
  all_goals exact State.finish_edit _ _ _ h

theorem State.serveBayReset_edit (e : QueueEntry) (h : Edit s x) : Edit s (x.serveBayReset e) := by
  refine State.forBay_edit e (fun b => ?_) h
  split
  · exact State.finish_edit _ _ _ h
  · split
    · exact State.finish_edit _ _ _ h
    · exact State.finish_edit _ _ _ (State.resetBay_edit _ h)

theorem State.serveRechallenge_edit (e : QueueEntry) (h : Edit s x) : Edit s (x.serveRechallenge e) := by
  refine State.forBay_edit e (fun b => ?_) h
  split
  · exact State.finish_edit _ _ _ h
  · split
    · exact State.finish_edit _ _ _ h
    · refine State.setWait_edit _ _ ?_
      split
      · exact State.modBay_edit _ _ h
      · exact h

theorem State.deliverSetting_edit (t : Setting) (o n : Nat) (h : Edit s x) : Edit s (x.deliverSetting t o n) := by
  unfold State.deliverSetting; split
  · exact State.recomputeAllModes_edit h
  · split
    · exact forBays_edit (fun b x h => State.admitQuarantined_edit b h) h
    · exact h
  · exact h.bays _
  · exact forBays_edit (fun b x h => State.lowTest_edit b h) h
  all_goals exact h

theorem State.serveConfigure_edit (e : QueueEntry) (h : Edit s x) : Edit s (x.serveConfigure e) := by
  unfold State.serveConfigure; split
  · exact State.finish_edit _ _ _ h
  · unfold State.configureSetting; split
    · exact State.finish_edit _ _ _ h
    · dsimp only
      refine State.finish_edit _ _ _ ?_
      split
      · exact State.modSettings_edit _ h
      · exact State.deliverSetting_edit _ _ _ (State.modSettings_edit _ h)

theorem State.serveSetBands_edit (e : QueueEntry) (h : Edit s x) : Edit s (x.serveSetBands e) := by
  unfold State.serveSetBands; split
  · exact State.finish_edit _ _ _ h
  · split
    · exact State.finish_edit _ _ _ h
    · exact State.finish_edit _ _ _ (State.recomputeAllModes_edit (State.modSettings_edit _ h))

theorem State.serveSetClass_edit (e : QueueEntry) (h : Edit s x) : Edit s (x.serveSetClass e) := by
  refine State.forBay_edit e (fun b => ?_) h
  dsimp only; split
  · exact State.finish_edit _ _ _ (State.modBay_edit _ _ h)
  · exact State.finish_edit _ _ _ h

theorem State.serveHold_edit (e : QueueEntry) (h : Edit s x) : Edit s (x.serveHold e) := by
  unfold State.serveHold; split
  · exact State.finish_edit _ _ _ h
  · dsimp only
    refine State.finish_edit _ _ _ ?_
    split
    · exact h
    · exact State.recomputeAllModes_edit (State.modSettings_edit _ h)

theorem State.serveHistoryQuery_edit (e : QueueEntry) (h : Edit s x) : Edit s (x.serveHistoryQuery e) := by
  unfold State.serveHistoryQuery; split <;> exact State.finish_edit _ _ _ h

theorem State.serveIdent_edit (e : QueueEntry) (h : Edit s x) : Edit s (x.serveIdent e) := by
  unfold State.serveIdent; split
  · exact State.finish_edit _ _ _ h
  · exact State.setWait_edit _ _ h

/-- What a request does at its owner, for every kind but the three that stand apart. -/
theorem State.serve_edit (e : QueueEntry) (hm : e.kind ≠ .setMask) (hf : e.kind ≠ .faults) (hl : e.kind ≠ .lockLevel)
    (h : Edit s x) : Edit s (x.serve e) := by
  unfold State.serve; split
  · exact State.serveIdent_edit e h
  · exact State.finish_edit _ _ _ h
  · exact State.forBay_edit e (fun b => State.finish_edit _ _ _ h) h
  · exact State.serveHistoryQuery_edit e h
  · exact State.finish_edit _ _ _ h
  · exact State.serveAckNotices_edit e h
  · exact absurd (by assumption) hf
  · exact State.serveUsage_edit e h
  · exact State.serveLevelSense_edit e h
  · exact State.serveFlush_edit e h
  · exact State.forBay_edit e (fun b => State.releaseBay_edit e b h) h
  · exact State.serveBayReset_edit e h
  · exact State.serveRechallenge_edit e h
  · exact State.serveConfigure_edit e h
  · exact State.serveSetBands_edit e h
  · exact State.serveSetClass_edit e h
  · exact State.serveHold_edit e h
  · exact absurd (by assumption) hm
  · exact State.complete_edit _ h
  · exact absurd (by assumption) hl
  · exact State.runSlots_edit (State.setWait_edit _ _ h)
  · exact State.runSlots_edit (State.setWait_edit _ _ h)

end Sys2Proof.Machine
end

