-- ==== Sys2Proof/Laws/Frames.lean ====
section
/-! SUPPORT. What the shared operations change, said once: each lemma gives an operation's result as the state it started from
with the fields it can change replaced, so that every other field is seen to stand. -/

namespace Sys2Proof.Machine

/-! ### Sources -/

theorem upd_upd {α : Type} {n : Nat} (v : Vector α n) (i : Fin n) (f g : α → α) :
    upd (upd v i f) i g = upd v i fun a => g (f a) := by
  have h : (v.set i (f v[i]))[i] = f v[i] := by simp
  unfold upd; rw [h]; simp

theorem upd_id {α : Type} {n : Nat} (v : Vector α n) (i : Fin n) (f : α → α) (h : f v[i] = v[i]) : upd v i f = v := by
  unfold upd; rw [h]; simp

theorem upd_congr {α : Type} {n : Nat} (v : Vector α n) (i : Fin n) {f g : α → α} (h : f v[i] = g v[i]) :
    upd v i f = upd v i g := by unfold upd; rw [h]

theorem NoticeKind.index_inj {k l : NoticeKind} (h : k.index = l.index) : k = l := by
  revert h; cases k <;> cases l <;> decide

theorem source_upd_same (v : Vector Source 21) (k : NoticeKind) (f : Source → Source) :
    (upd v k.index f)[k.index] = f v[k.index] := upd_get_same v k.index f

theorem source_upd_ne (v : Vector Source 21) {k l : NoticeKind} (f : Source → Source) (h : l ≠ k) :
    (upd v k.index f)[l.index] = v[l.index] := upd_get_ne v f fun e => h (NoticeKind.index_inj e)

/-- A state that differs from `s` in the sources of the kinds `ks` only. -/
def SourcesOnly (ks : List NoticeKind) (v w : Vector Source 21) : Prop := ∀ k, k ∉ ks → w[k.index] = v[k.index]

theorem SourcesOnly.refl (ks : List NoticeKind) (v : Vector Source 21) : SourcesOnly ks v v := fun _ _ => rfl

theorem SourcesOnly.trans {ks : List NoticeKind} {u v w : Vector Source 21} (h : SourcesOnly ks u v) (k : SourcesOnly ks v w) :
    SourcesOnly ks u w := fun x hx => (k x hx).trans (h x hx)

theorem SourcesOnly.mono {ks ls : List NoticeKind} {v w : Vector Source 21} (h : SourcesOnly ks v w)
    (hl : ∀ k, k ∈ ks → k ∈ ls) : SourcesOnly ls v w := fun x hx => h x fun hk => hx (hl x hk)

theorem SourcesOnly.upd {ks : List NoticeKind} (v : Vector Source 21) {k : NoticeKind} (hk : k ∈ ks) (f : Source → Source) :
    SourcesOnly ks v (Sys2Proof.upd v k.index f) := fun _ hx => source_upd_ne v f fun e => hx (e ▸ hk)

/-- `raiseIf` changes the source of its kind at most. -/
theorem State.raiseIf_only (s : State) (p : Bool) (k : NoticeKind) (b : Bay) :
    ∃ v, s.raiseIf p k b = { s with notice := { s.notice with sources := v } } ∧ SourcesOnly [k] s.notice.sources v := by
  unfold State.raiseIf; split
  · exact ⟨_, rfl, SourcesOnly.upd _ (List.mem_singleton.2 rfl) _⟩
  · exact ⟨_, rfl, SourcesOnly.refl _ _⟩

/-! ### Replies and waits -/

theorem State.placeReply_only (s : State) (r : Reply) : ∃ l, s.placeReply r = { s with link := l } := ⟨_, rfl⟩

theorem State.complete_only (s : State) (c : Completion) :
    ∃ l q, s.complete c = { s with link := l, dispatcher := { s.dispatcher with queue := q } } := by
  unfold State.complete; split
  · exact ⟨_, _, rfl⟩
  · obtain ⟨l, h⟩ := State.placeReply_only (s.setWait c.tag .replied) _
    exact ⟨l, _, h⟩

theorem foldl_complete_only (cs : List Completion) (s : State) :
    ∃ l q, cs.foldl State.complete s = { s with link := l, dispatcher := { s.dispatcher with queue := q } } := by
  induction cs generalizing s with
  | nil => exact ⟨_, _, rfl⟩
  | cons c cs ih =>
    obtain ⟨l, q, h⟩ := s.complete_only c
    obtain ⟨l', q', h'⟩ := ih (s.complete c)
    exact ⟨l', q', by rw [List.foldl_cons, h', h]⟩

theorem State.completeAll_only (s : State) (cs : List Completion) :
    ∃ l q, s.completeAll cs = { s with link := l, dispatcher := { s.dispatcher with queue := q } } := foldl_complete_only cs s

/-- An event at a bay completes requests, and so changes the queue and the link only (R178). -/
theorem State.settleWaits_only (s : State) (b : Bay) (e : Ending) :
    ∃ l q, s.settleWaits b e = { s with link := l, dispatcher := { s.dispatcher with queue := q } } := by
  have k : ∃ q, s.recordFlush b e = { s with dispatcher := { s.dispatcher with queue := q } } := by
    unfold State.recordFlush; split <;> exact ⟨_, rfl⟩
  obtain ⟨q, h⟩ := k
  obtain ⟨l, q', h'⟩ := (s.recordFlush b e).completeAll_only
    ((s.recordFlush b e).dispatcher.queue.filterMap (waitEnding (s.recordFlush b e) b e))
  exact ⟨l, q', by unfold State.settleWaits; dsimp only; rw [h', h]⟩

/-! ### The append set and the table -/

theorem State.joinSet_only (s : State) (x : Serial) :
    ∃ l c, s.joinSet x = { s with journal := { s.journal with appendSet := l, copyStale := c } } := by
  unfold State.joinSet; split <;> exact ⟨_, _, rfl⟩

/-- `joinSet` and the other operations that change the journal's append set, and the note of a stale copy, only. -/
theorem State.modEntryJournaled_only (s : State) (x : Serial) (f : HistoryEntry → HistoryEntry) :
    ∃ t l c, s.modEntryJournaled x f =
      { s with refill := { s.refill with table := t }, journal := { s.journal with appendSet := l, copyStale := c } } := by
  unfold State.modEntryJournaled; split
  · split
    · exact ⟨_, _, _, rfl⟩
    · obtain ⟨l, c, h⟩ := (s.modEntry x f).joinSet_only x
      exact ⟨_, l, c, h⟩
  · exact ⟨_, _, _, rfl⟩

/-- The entry of a serial after its change: a change that keeps the serial changes the entry found. -/
theorem State.entry_modEntry (s : State) (x : Serial) (f : HistoryEntry → HistoryEntry) (hf : ∀ e, (f e).serial = e.serial) :
    (s.modEntry x f).entry x = (s.entry x).map f := by
  have key : ∀ l : List HistoryEntry,
      (l.map fun e => if e.serial = x then f e else e).find? (fun e => e.serial = x) =
        (l.find? fun e => e.serial = x).map f := by
    intro l
    induction l with
    | nil => rfl
    | cons e l ih =>
      by_cases h : e.serial = x
      · simp [h, hf]
      · simp [h, ih]
  exact key s.refill.table

/-- The entry of another serial stands. -/
theorem State.entry_modEntry_ne (s : State) {x y : Serial} (f : HistoryEntry → HistoryEntry)
    (hf : ∀ e, (f e).serial = e.serial) (h : y ≠ x) : (s.modEntry x f).entry y = s.entry y := by
  have key : ∀ l : List HistoryEntry,
      (l.map fun e => if e.serial = x then f e else e).find? (fun e => e.serial = y) = l.find? fun e => e.serial = y := by
    intro l
    induction l with
    | nil => rfl
    | cons e l ih =>
      by_cases hx : e.serial = x
      · simp [hx, hf, ih, h.symm]
      · by_cases hy : e.serial = y <;> simp [hx, hy, ih, h]
  exact key s.refill.table

/-! ### Accounting -/

/-- A recomputation changes the account's mode and FLUSH demand, and completes requests (R90). -/
theorem State.recomputeMode_only (s : State) (b : Bay) :
    ∃ d l q, s.recomputeMode b = { s with
      accounts := upd s.accounts b fun a => { a with mode := effectiveMode s.settings a, drain := { a.drain with flush := d } }
      link := l, dispatcher := { s.dispatcher with queue := q } } := by
  unfold State.recomputeMode; dsimp only; split
  · rename_i h
    refine ⟨(s.account b).drain.flush, s.link, s.dispatcher.queue, ?_⟩
    rw [upd_id]
    change effectiveMode s.settings s.accounts[b] = s.accounts[b].mode at h
    rw [h]; rfl
  · split
    · rename_i h1 h2
      obtain ⟨l, q, h⟩ := (s.modAccount b fun a =>
        { a with mode := effectiveMode s.settings (s.account b), drain := { a.drain with flush := false } }).settleWaits_only b
          { flush := some .frozen }
      exact ⟨false, l, q, h⟩
    · exact ⟨(s.account b).drain.flush, _, _, rfl⟩

/-- The low-level test sets low-notified and raises LEVEL_LOW at most (R111). -/
theorem State.lowTest_only (s : State) (b : Bay) :
    ∃ n v, s.lowTest b = { s with
      accounts := upd s.accounts b fun a => { a with lowNotified := n }, notice := { s.notice with sources := v } } ∧
      SourcesOnly [.levelLow] s.notice.sources v := by
  unfold State.lowTest; dsimp only; split
  · exact ⟨true, _, rfl, SourcesOnly.upd _ (List.mem_singleton.2 rfl) _⟩
  · refine ⟨(s.account b).lowNotified, s.notice.sources, ?_, SourcesOnly.refl _ _⟩
    rw [upd_id]; rfl

/-- Quanta laid on an account (R74 to R76, R108): the account takes stage 7, and may change its mode, its FLUSH demand and its
low-notified flag; requests may complete, and OVERDRAW, LEVEL_LOW and ALLOWANCE_EXHAUSTED may be raised. -/
theorem State.applyQuanta_only (s : State) (b : Bay) (n : Nat) :
    ∃ m d w v l q, s.applyQuanta b n = { s with
      accounts := upd s.accounts b fun a =>
        { a.stage7 n with mode := m, drain := { a.drain with flush := d }, lowNotified := w }
      notice := { s.notice with sources := v }
      link := l, dispatcher := { s.dispatcher with queue := q } } ∧
      SourcesOnly [.overdraw, .levelLow, .allowanceExhausted] s.notice.sources v := by
  -- the four parts in order
  obtain ⟨v1, h1, k1⟩ := (s.modAccount b (·.stage7 n)).raiseIf_only
    ((s.account b).overdraw = 0 && decide (0 < ((s.account b).stage7 n).overdraw)) .overdraw b
  have h1' : s.layQuanta b n = { s with
      accounts := upd s.accounts b (·.stage7 n), notice := { s.notice with sources := v1 } } := h1
  have mid : ∃ m d l q, (if ((s.layQuanta b n).account b).remaining = (s.account b).remaining then s.layQuanta b n
      else (s.layQuanta b n).recomputeMode b) = { s with
        accounts := upd s.accounts b fun a => { a.stage7 n with mode := m, drain := { a.drain with flush := d } }
        notice := { s.notice with sources := v1 }
        link := l, dispatcher := { s.dispatcher with queue := q } } := by
    have hd : ∀ a : Account, (a.stage7 n).drain = a.drain := by intro a; unfold Account.stage7; split <;> rfl
    split
    · refine ⟨((s.account b).stage7 n).mode, (s.account b).drain.flush, s.link, s.dispatcher.queue, ?_⟩
      have e : upd s.accounts b (·.stage7 n) = upd s.accounts b fun a => { a.stage7 n with
          mode := ((s.account b).stage7 n).mode, drain := { a.drain with flush := (s.account b).drain.flush } } := by
        refine upd_congr _ _ ?_
        change (s.account b).stage7 n = { (s.account b).stage7 n with drain := (s.account b).drain }
        rw [← hd (s.account b)]
      rw [h1', e]
    · obtain ⟨d, l, q, h⟩ := (s.layQuanta b n).recomputeMode_only b
      refine ⟨effectiveMode s.settings ((s.account b).stage7 n), d, l, q, ?_⟩
      rw [h, h1']
      simp only [upd_upd, hd]
      rw [upd_congr s.accounts b (g := fun a => { a.stage7 n with
        mode := effectiveMode s.settings ((s.account b).stage7 n), drain := { a.drain with flush := d } })]
      rfl
  obtain ⟨m, d, l, q, hm⟩ := mid
  obtain ⟨w, v2, h2, k2⟩ := (if ((s.layQuanta b n).account b).remaining = (s.account b).remaining then s.layQuanta b n
      else (s.layQuanta b n).recomputeMode b).lowTest_only b
  rw [hm] at h2 k2
  have h3 : ((s.layQuanta b n).afterStage7 b (s.account b).remaining) = { s with
      accounts := upd s.accounts b fun a =>
        { a.stage7 n with mode := m, drain := { a.drain with flush := d }, lowNotified := w }
      notice := { s.notice with sources := v2 }
      link := l, dispatcher := { s.dispatcher with queue := q } } := by
    unfold State.afterStage7; dsimp only
    rw [hm, h2]; simp only [upd_upd]
  obtain ⟨v3, h4, k3⟩ := ((s.layQuanta b n).afterStage7 b (s.account b).remaining).raiseIf_only
    ((((s.layQuanta b n).afterStage7 b (s.account b).remaining).bay b).state = .admitted && decide (0 < s.allowance b) &&
      ((s.layQuanta b n).afterStage7 b (s.account b).remaining).allowance b = 0) .allowanceExhausted b
  refine ⟨m, d, w, v3, l, q, ?_, ?_⟩
  · unfold State.applyQuanta State.allowanceChecked; dsimp only
    rw [h4, h3]
  · rw [h3] at k3
    exact ((k1.mono (by simp)).trans (k2.mono (by simp))).trans (k3.mono (by simp))

/-- The kinds that quanta laid on an account can raise. -/
def ledgerKinds : List NoticeKind := [.overdraw, .levelLow, .allowanceExhausted]

/-- Debt taken into an account changes what `applyQuanta` changes, and its residue (R77, R133). -/
theorem State.takeDebt_only (s : State) (b : Bay) (n r : Nat) :
    ∃ g v l q, s.takeDebt b n r = { s with
      accounts := upd s.accounts b g, notice := { s.notice with sources := v }
      link := l, dispatcher := { s.dispatcher with queue := q } } ∧
      SourcesOnly ledgerKinds s.notice.sources v := by
  obtain ⟨m, d, w, v, l, q, h, k⟩ := (s.setResidue b (residueOf ((s.account b).residue + r))).applyQuanta_only b
    (n + quantaOf ((s.account b).residue + r))
  refine ⟨fun a => { ({ a with residue := residueOf ((s.account b).residue + r) } : Account).stage7
    (n + quantaOf ((s.account b).residue + r)) with mode := m, drain := { a.drain with flush := d }, lowNotified := w },
    v, l, q, ?_, k⟩
  unfold State.takeDebt; dsimp only
  rw [h]; simp only [State.setResidue, State.modAccount, upd_upd]

/-- Quanta added to an account's overdraw change nothing but it and OVERDRAW's source (R129, R133). -/
theorem State.addOverdraw_only (s : State) (b : Bay) (n : Nat) :
    ∃ v, s.addOverdraw b n = { s with
      accounts := upd s.accounts b fun a => { a with overdraw := addSaturating (s.account b).overdraw n }
      notice := { s.notice with sources := v } } ∧ SourcesOnly ledgerKinds s.notice.sources v := by
  obtain ⟨v, h, k⟩ := (s.modAccount b fun a => { a with overdraw := addSaturating (s.account b).overdraw n }).raiseIf_only
    ((s.account b).overdraw = 0 && decide (0 < addSaturating (s.account b).overdraw n)) .overdraw b
  exact ⟨v, h, k.mono (by simp [ledgerKinds])⟩

theorem State.receiver_live (s : State) {x : Serial} {c : Bay} (h : s.receiver x = some c) : (s.account c).live = true := by
  have key : ∀ {d : Bay}, d ∈ s.liveAccountsOf x → (s.account d).live = true := fun hd => by
    have := (List.mem_filter.1 hd).2
    simp only [Bool.and_eq_true, decide_eq_true_eq] at this
    exact this.1
  unfold State.receiver at h
  cases hf : (s.liveAccountsOf x).find? fun c => (s.bay c).drawable with
  | some d =>
    rw [hf] at h; change some d = some c at h
    rw [← Option.some.inj h]; exact key (List.mem_of_find?_eq_some hf)
  | none =>
    rw [hf] at h; change (s.liveAccountsOf x).head? = some c at h
    exact key (List.mem_of_head? h)

/-- A liability that moves changes the table, or one live account; requests may complete, and the ledger's notices may be raised
(R132, R133). -/
theorem State.handLiability_only (s : State) (x : Serial) (m : Liability) :
    ∃ a t v l q j c, s.handLiability x m = { s with
      accounts := a, refill := { s.refill with table := t }, notice := { s.notice with sources := v }
      journal := { s.journal with appendSet := j, copyStale := c }
      link := l, dispatcher := { s.dispatcher with queue := q } } ∧
      (∀ b : Bay, (s.account b).live = false → a[b] = s.account b) ∧ SourcesOnly ledgerKinds s.notice.sources v := by
  have fin : ∀ y : State, (∃ a t v l q, y = { s with
        accounts := a, refill := { s.refill with table := t }, notice := { s.notice with sources := v }
        link := l, dispatcher := { s.dispatcher with queue := q } } ∧
      (∀ b : Bay, (s.account b).live = false → a[b] = s.account b) ∧ SourcesOnly ledgerKinds s.notice.sources v) →
      ∃ a t v l q j c, y.joinSet x = { s with
        accounts := a, refill := { s.refill with table := t }, notice := { s.notice with sources := v }
        journal := { s.journal with appendSet := j, copyStale := c }
        link := l, dispatcher := { s.dispatcher with queue := q } } ∧
      (∀ b : Bay, (s.account b).live = false → a[b] = s.account b) ∧ SourcesOnly ledgerKinds s.notice.sources v := by
    rintro y ⟨a, t, v, l, q, rfl, ha, k⟩
    obtain ⟨j, c, hj⟩ := State.joinSet_only _ x
    exact ⟨a, t, v, l, q, j, c, hj, ha, k⟩
  refine fin _ ?_
  split
  · rename_i c hc
    have hl := s.receiver_live hc
    have other : ∀ (g : Account → Account) (b : Bay), (s.account b).live = false → (upd s.accounts c g)[b] = s.account b := by
      intro g b hb
      refine upd_get_ne _ _ fun e => ?_
      rw [e, hl] at hb; exact nomatch hb
    split
    · obtain ⟨g, v, l, q, h, k⟩ := s.takeDebt_only c m.pending m.residue
      exact ⟨_, s.refill.table, v, l, q, h, other g, k⟩
    · obtain ⟨v, h, k⟩ := s.addOverdraw_only c m.pending
      exact ⟨_, s.refill.table, v, s.link, s.dispatcher.queue, h, other _, k⟩
  · exact ⟨s.accounts, _, s.notice.sources, s.link, s.dispatcher.queue, rfl, fun _ _ => rfl, SourcesOnly.refl _ _⟩

/-- An account that closes becomes cold, and its liability moves (R84). -/
theorem State.closeWithLiability_only (s : State) (b : Bay) :
    ∃ a t v l q j c, s.closeWithLiability b = { s with
      accounts := a, refill := { s.refill with table := t }, notice := { s.notice with sources := v }
      journal := { s.journal with appendSet := j, copyStale := c }
      link := l, dispatcher := { s.dispatcher with queue := q } } ∧
      ((s.account b).live = true → a[b] = Account.cold) ∧ SourcesOnly ledgerKinds s.notice.sources v := by
  unfold State.closeWithLiability; dsimp only; split
  · have hb : (s.modAccount b fun _ => Account.cold).account b = Account.cold := upd_get_same _ _ _
    split
    · rename_i x _
      obtain ⟨a, t, v, l, q, j, c, h, ha, k⟩ := (s.modAccount b fun _ => Account.cold).handLiability_only x (s.account b).liability
      exact ⟨a, t, v, l, q, j, c, h, fun _ => (ha b (by rw [hb]; rfl)).trans hb, k⟩
    · exact ⟨_, s.refill.table, s.notice.sources, s.link, s.dispatcher.queue, s.journal.appendSet, s.journal.copyStale, rfl, fun _ => hb,
        SourcesOnly.refl _ _⟩
  · rename_i hl
    exact ⟨s.accounts, s.refill.table, s.notice.sources, s.link, s.dispatcher.queue, s.journal.appendSet, s.journal.copyStale, rfl,
      fun h => absurd h hl, SourcesOnly.refl _ _⟩

/-- An account that closes with nothing to hand over (R84, R104). -/
theorem State.closeEmpty_only (s : State) (b : Bay) :
    ∃ j c, s.closeEmpty b = { s with
      accounts := upd s.accounts b fun _ => Account.cold, journal := { s.journal with appendSet := j, copyStale := c } } := by
  unfold State.closeEmpty; dsimp only; split
  · exact State.joinSet_only _ _
  · exact ⟨_, _, rfl⟩

/-! ### Bays -/

/-- The unbinding of a bay changes its serial, the table and the append set (R124). -/
theorem State.unbind_only (s : State) (b : Bay) :
    ∃ t j c, s.unbind b = { s with
      bays := upd s.bays b fun r => { r with serial := none }
      refill := { s.refill with table := t }, journal := { s.journal with appendSet := j, copyStale := c } } := by
  unfold State.unbind; split
  · rename_i h
    refine ⟨s.refill.table, s.journal.appendSet, s.journal.copyStale, ?_⟩
    rw [upd_id]
    change (s.bays[b]).serial = none at h
    rw [← h]
  · rename_i x _
    obtain ⟨j, c, h⟩ := (s.modEntry x fun e => { e with bay := none }).joinSet_only x
    exact ⟨_, j, c, by rw [h]; rfl⟩

/-- A bay that leaves for a state that is not drawable: its record, its port, its context and jobs, and the discarding of its
challenge's transaction (R61). -/
theorem State.leaveTo_only (s : State) (b : Bay) (t : BayState) (r : RejectReason) :
    ∃ p u jobs comp, s.leaveTo b t r = { s with
      bays := upd s.bays b fun x =>
        { x with fetchDue := false, state := t, rejectReason := r, rechallenge := .idle, rechallengeTimer := none }
      ports := upd s.ports b p, buses := upd s.buses (busOf b) u
      digest := { s.digest with contexts := upd s.digest.contexts b (fun _ => Context.closed), queue := jobs, computing := comp } } ∧
      ∀ x, (u x).lastGranted = x.lastGranted ∧ (u x).restTimer = x.restTimer ∧ (x.current = none → u x = x) := by
  refine ⟨fun q => { posted := match q.posted with
        | some r => if r.op.isChallenge then none else some r
        | none => none, answerTimer := none, fetchCount := 0 },
    fun x => { x with current := x.current.map fun t =>
      if t.bay = b && t.request.op.isChallenge then { t with discarded := true } else t },
    s.digest.queue.filter fun j => j.bay != b,
    s.digest.computing.map fun c => if c.bay = b then { c with discarded := true } else c, ?_, fun x => ⟨rfl, rfl, fun h => ?_⟩⟩
  · unfold State.leaveTo State.endChallenge State.discardTransaction State.closeContext Digest.dropJob
    simp only [State.modContext, State.modDigest, State.modBay, State.modBus, State.modPort, upd_upd] <;> rfl
  · cases x; cases h; rfl

/-- A rejection: the bay leaves for REJECTED, its live account closes, its notice is raised, and requests complete (R12, R84). -/
theorem State.rejectBay_only (s : State) (b : Bay) (r : RejectReason) :
    ∃ p u jobs comp a t v l q j c, s.rejectBay b r = { s with
      bays := upd s.bays b fun x =>
        { x with fetchDue := false, state := .rejected, rejectReason := r, rechallenge := .idle, rechallengeTimer := none }
      ports := upd s.ports b p, buses := upd s.buses (busOf b) u
      digest := { s.digest with contexts := upd s.digest.contexts b (fun _ => Context.closed), queue := jobs, computing := comp }
      accounts := a, refill := { s.refill with table := t }
      notice := { s.notice with sources := upd v r.notice.index fun x => { x with bays := x.bays ||| (1#12 <<< b.val) } }
      journal := { s.journal with appendSet := j, copyStale := c }
      link := l, dispatcher := { s.dispatcher with queue := q } } ∧
      (∀ x, (u x).lastGranted = x.lastGranted ∧ (u x).restTimer = x.restTimer ∧ (x.current = none → u x = x)) ∧
      ((s.account b).live = true → a[b] = Account.cold) ∧ SourcesOnly ledgerKinds s.notice.sources v := by
  obtain ⟨p, u, jobs, comp, h, hu⟩ := s.leaveTo_only b .rejected r
  obtain ⟨a, t, v, l, q, j, c, h1, ha, k⟩ := (s.leaveTo b .rejected r).closeWithLiability_only b
  rw [h] at h1 ha k
  obtain ⟨l', q', h2⟩ := State.settleWaits_only (((s.leaveTo b .rejected r).closeWithLiability b).raise r.notice b) b
    failedEnding
  refine ⟨p, u, jobs, comp, a, t, v, l', q', j, c, ?_, hu, ha, k⟩
  unfold State.rejectBay
  rw [h2, h, h1]; rfl

/-- A fault: the bay leaves for FAULTED with its account live, BAY_FAULTED is raised, and requests complete (R12). -/
theorem State.faultBay_only (s : State) (b : Bay) :
    ∃ p u jobs comp l q, s.faultBay b = { s with
      bays := upd s.bays b fun x =>
        { x with fetchDue := false, state := .faulted, rejectReason := .none, rechallenge := .idle, rechallengeTimer := none }
      ports := upd s.ports b p, buses := upd s.buses (busOf b) u
      digest := { s.digest with contexts := upd s.digest.contexts b (fun _ => Context.closed), queue := jobs, computing := comp }
      notice := { s.notice with
        sources := upd s.notice.sources NoticeKind.bayFaulted.index fun x => { x with bays := x.bays ||| (1#12 <<< b.val) } }
      link := l, dispatcher := { s.dispatcher with queue := q } } ∧
      ∀ x, (u x).lastGranted = x.lastGranted ∧ (u x).restTimer = x.restTimer ∧ (x.current = none → u x = x) := by
  obtain ⟨p, u, jobs, comp, h, hu⟩ := s.leaveTo_only b .faulted .none
  obtain ⟨l, q, h2⟩ := State.settleWaits_only ((s.leaveTo b .faulted .none).raise .bayFaulted b) b failedEnding
  refine ⟨p, u, jobs, comp, l, q, ?_, hu⟩
  unfold State.faultBay
  rw [h2, h]; rfl

/-! ### The examination for a commit (R76, R93) -/

/-- An examination changes nothing, or starts a commit of a bay with nothing posted and nothing in progress, once a grant that was
due on its bus has been made. -/
theorem State.examine_cases (s : State) (b : Bay) :
    s.examine b = s ∨ ((s.port b).posted = none ∧ s.inProgress b = false ∧ s.nextDue b = some .commit ∧
      s.examine b = (s.grant (busOf b)).startCommit b) := by
  unfold State.examine; split
  · rename_i h
    unfold State.chooseNext; split
    · exact .inl rfl
    · rename_i hf
      simp only [Bool.or_eq_true, not_or, Bool.not_eq_true, Option.isSome_eq_false_iff, Option.isNone_iff_eq_none] at hf
      refine .inr ⟨hf.1, hf.2, h, ?_⟩
      rw [h]; rfl
  · exact .inl rfl

/-- A grant changes one bay's port and its bus (R28). -/
theorem State.grant_only (s : State) (n : Bus) :
    ∃ v u, s.grant n = { s with ports := v, buses := upd s.buses n u } ∧
      ∀ c : Bay, (s.port c).posted = none → v[c] = s.port c := by
  have same : s = { s with ports := s.ports, buses := upd s.buses n id } := by rw [upd_id _ _ _ rfl]
  unfold State.grant; split
  · split
    · rename_i b _
      split
      · rename_i q hq
        refine ⟨_, _, rfl, fun c hc => upd_get_ne _ _ fun e => ?_⟩
        rw [e, hq] at hc; exact nomatch hc
      · exact ⟨_, _, same, fun _ _ => rfl⟩
    · exact ⟨_, _, same, fun _ _ => rfl⟩
  · exact ⟨_, _, same, fun _ _ => rfl⟩

end Sys2Proof.Machine
end

