-- ==== Sys2Proof/Laws/Requests.lean ====
section
/-! SUPPORT. What the request queue and the transmit list do, said once: a request that is taken is served by its kind's owner, a
refused one is answered at once, and completing the request just taken gives the state `Safety.answered`. -/

namespace Sys2Proof.Machine

open Sys2Proof.Safety

variable {s : State}

theorem State.placeReply_eq (s : State) (r : Reply) : s.placeReply r = placing s r := by
  unfold State.placeReply placing State.modLink Link.place; rfl

theorem placing_link (s : State) (r : Reply) : (placing s r).link = s.link.place r := by
  unfold placing Link.place; rfl

/-- A taken request: judged OK by the Request Dispatcher. -/
theorem State.judgeArrival_admits {k : RequestKind} {tag claimed : Byte} {p : List Byte} (h : admits s k tag claimed p) :
    s.judgeArrival k.code tag claimed p = .ok k := by
  obtain ⟨hq, ht, hl, hs, hn⟩ := h
  have hk : kindOfCode k.code = some k := by cases k <;> decide
  have hb : ¬ Config.queueSize ≤ s.dispatcher.queue.length := Nat.not_le.2 hq
  have hd : ¬ (s.dispatcher.queue.any fun e => e.tag = tag) = true := by
    simpa [List.any_eq_true] using ht
  have hr : s.kindRefusal k (effectiveLevel s.dispatcher claimed) p = none := by
    unfold State.kindRefusal
    rw [if_neg (Nat.not_lt.2 hl), if_neg]
    · cases hf : k.fixedLength with
      | none => rfl
      | some n => simp [hn n hf]
    · intro hc
      simp only [Bool.and_eq_true, decide_eq_true_eq, bne_iff_ne, ne_eq] at hc
      rcases hs hc.1.1 with h | h
      · exact hc.1.2 h
      · exact hc.2 h
  unfold State.judgeArrival
  rw [if_neg hb, if_neg hd, hk]
  simp only [hr]

/-- A taken request joins the queue and is served by its owner. -/
theorem State.deliver_admits {k : RequestKind} {tag claimed : Byte} {p : List Byte} (h : admits s k tag claimed p) :
    s.deliver k.code tag claimed p =
      (holding s (entryOf s k tag claimed p .owner)).together fun t => t.serve (entryOf s k tag claimed p .owner) := by
  unfold State.deliver
  rw [State.judgeArrival_admits h]; rfl

/-- A taken request whose service places at most one reply is served as its owner's definition says. -/
theorem State.deliver_served {k : RequestKind} {tag claimed : Byte} {p : List Byte} {t : State} (h : admits s k tag claimed p)
    (ht : (holding s (entryOf s k tag claimed p .owner)).serve (entryOf s k tag claimed p .owner) = t)
    (hl : t.link = s.link ∨ ∃ r, t.link = s.link.place r) : s.deliver k.code tag claimed p = t := by
  rw [State.deliver_admits h]
  rcases hl with hl | ⟨r, hl⟩
  · rw [State.together_of_link _ (by rw [ht]; exact hl), ht]
  · rw [State.together_of_place (r := r) _ (by rw [ht]; exact hl), ht]

/-- Changing the wait of the request just taken changes no other. -/
theorem State.setWait_holding {e : QueueEntry} (h : ∀ x ∈ s.dispatcher.queue, x.tag ≠ e.tag) (w : Wait) :
    (holding s e).setWait e.tag w = holding s { e with wait := w } := by
  have k : (s.dispatcher.queue.map fun x => if x.tag = e.tag then { x with wait := w } else x) = s.dispatcher.queue := by
    refine (List.map_congr_left (g := id) fun x hx => ?_).trans (List.map_id _)
    exact if_neg (h x hx)
  simp [State.setWait, holding, State.modDispatcher, List.map_append, k]

/-- Completing the request just taken. -/
theorem State.finish_holding {e : QueueEntry} (h : ∀ x ∈ s.dispatcher.queue, x.tag ≠ e.tag) (r : ResultCode) (p : List Byte) :
    (holding s e).finish e r p = answered s e r p := by
  have hf : (holding s e).dispatcher.queue.find? (fun x => x.tag = e.tag) = some e := by
    simp only [holding, List.find?_append]
    rw [List.find?_eq_none.2 (by simpa using h)]
    simp
  unfold State.finish State.complete
  simp only [hf]
  rw [State.setWait_holding h, State.placeReply_eq]
  rfl

/-- R169, R178: an event that places two replies places them in either order. -/
theorem State.together_eitherOrder {f : State → State} {a b : Reply} (h : (f s).link = (s.link.place a).place b) :
    eitherOrder s (s.together f) a b := by
  obtain ⟨qs, hp, hl⟩ := s.together_perm (rs := [a, b]) h
  have two : qs = [a, b] ∨ qs = [b, a] := by
    obtain ⟨x, y, rfl⟩ := List.length_eq_two.1 hp.length_eq
    have hx : x ∈ [a, b] := hp.subset (by simp)
    simp only [List.mem_cons, List.not_mem_nil, or_false] at hx
    rcases hx with rfl | rfl
    · exact .inl (by rw [List.perm_singleton.1 (hp.cons_inv)])
    · exact .inr (by rw [List.perm_singleton.1 ((hp.trans (.swap _ _ _)).cons_inv)])
  unfold eitherOrder
  rw [hl, placing_link, placing_link, placing_link, placing_link]
  rcases two with rfl | rfl
  · exact .inl rfl
  · exact .inr rfl

/-- The completions that `f` picks for entries of a queue whose tags are unique: each of those entries is completed, and its reply
placed, in the queue's order (R168). -/
theorem State.completeAll_unique (s : State) (h : tagsUnique s) (f : QueueEntry → Option Completion)
    (hf : ∀ q c, f q = some c → c.tag = q.tag ∧ c.newRate = none) :
    s.completeAll (s.dispatcher.queue.filterMap f) = { s with
      dispatcher := { s.dispatcher with
        queue := s.dispatcher.queue.map fun q => if (f q).isSome then { q with wait := .replied } else q }
      link := (s.dispatcher.queue.filterMap fun q => (f q).map fun c => replyOf q c.result c.payload).foldl Link.place s.link } := by
  have key : ∀ (rest pre : List QueueEntry) (x : State), x.dispatcher.queue = pre ++ rest → tagsUnique x →
      x.completeAll (rest.filterMap f) = { x with
        dispatcher := { x.dispatcher with
          queue := pre ++ rest.map fun q => if (f q).isSome then { q with wait := .replied } else q }
        link := (rest.filterMap fun q => (f q).map fun c => replyOf q c.result c.payload).foldl Link.place x.link } := by
    intro rest
    induction rest with
    | nil => intro pre x hx _; simp only [List.filterMap_nil, List.map_nil, ← hx]; rfl
    | cons q rest ih =>
      intro pre x hx hu
      cases hq : f q with
      | none =>
        rw [List.filterMap_cons_none hq, List.filterMap_cons_none (by rw [hq]; rfl), ih (pre ++ [q]) x (by simp [hx]) hu]
        simp [hq]
      | some c =>
        obtain ⟨ht, hr⟩ := hf q c hq
        have hu' : ((pre ++ q :: rest).map (·.tag)).Nodup := by rw [← hx]; exact hu
        rw [List.map_append, List.map_cons, List.nodup_append] at hu'
        obtain ⟨_, hn, hd⟩ := hu'
        have hpre : ∀ e ∈ pre, e.tag ≠ q.tag := fun e he =>
          hd _ (List.mem_map_of_mem he) _ (List.mem_cons_self ..)
        have hrest : ∀ e ∈ rest, e.tag ≠ q.tag := fun e he eq =>
          (List.nodup_cons.1 hn).1 (eq ▸ List.mem_map_of_mem he)
        have hfind : x.dispatcher.queue.find? (fun e => e.tag = c.tag) = some q := by
          rw [hx, List.find?_append, List.find?_eq_none.2 (by simpa [ht] using hpre), ht]; simp
        have same : ∀ l : List QueueEntry, (∀ e ∈ l, e.tag ≠ q.tag) →
            (l.map fun e => if e.tag = q.tag then { e with wait := Wait.replied } else e) = l := fun l hl =>
          (List.map_congr_left (g := id) fun e he => if_neg (hl e he)).trans (List.map_id _)
        have hset : x.setWait c.tag .replied = { x with dispatcher := { x.dispatcher with
            queue := (pre ++ [{ q with wait := Wait.replied }]) ++ rest } } := by
          unfold State.setWait State.modDispatcher; dsimp only
          rw [hx, ht, List.map_append, List.map_cons, same pre hpre, same rest hrest]; simp
        have hc : x.complete c = { x with
            dispatcher := { x.dispatcher with queue := (pre ++ [{ q with wait := Wait.replied }]) ++ rest }
            link := x.link.place (replyOf q c.result c.payload) } := by
          unfold State.complete; rw [hfind]; dsimp only; rw [hset]
          unfold State.placeReply State.modLink replyOf replyKind; rw [ht, hr]
        rw [List.filterMap_cons_some hq, List.filterMap_cons_some (b := replyOf q c.result c.payload) (by rw [hq]; rfl)]
        unfold State.completeAll
        rw [List.foldl_cons, hc]
        have hn' : tagsUnique { x with
            dispatcher := { x.dispatcher with queue := (pre ++ [{ q with wait := Wait.replied }]) ++ rest }
            link := x.link.place (replyOf q c.result c.payload) } := by
          unfold tagsUnique at hu ⊢
          rw [hx] at hu; simpa using hu
        have := ih (pre ++ [{ q with wait := Wait.replied }]) _ rfl hn'
        unfold State.completeAll at this
        rw [this, List.foldl_cons]; simp [hq]
  exact key s.dispatcher.queue [] s rfl h

theorem waitEnding_tag {s : State} {b : Bay} {e : Ending} {q : QueueEntry} {c : Completion} (h : waitEnding s b e q = some c) :
    c.tag = q.tag ∧ c.newRate = none := by
  unfold waitEnding at h
  split at h <;> (try split at h)
  all_goals first
    | (obtain ⟨_, _, rfl⟩ := Option.map_eq_some_iff.1 h; exact ⟨rfl, rfl⟩)
    | (obtain rfl := Option.some.inj h; exact ⟨rfl, rfl⟩)
    | simp at h

/-- An event at a bay, while no FLUSH for ALL waits: the requests it completes are completed in the queue's order (R103, R178). -/
theorem State.settleWaits_unique (s : State) (h : tagsUnique s) (b : Bay) (e : Ending)
    (hf : e.flush = none ∨ ∀ q ∈ s.dispatcher.queue, ∀ os, q.wait ≠ .flushAll os) :
    s.settleWaits b e = { s with
      dispatcher := { s.dispatcher with
        queue := s.dispatcher.queue.map fun q => if (waitEnding s b e q).isSome then { q with wait := .replied } else q }
      link := (s.dispatcher.queue.filterMap fun q =>
        (waitEnding s b e q).map fun c => replyOf q c.result c.payload).foldl Link.place s.link } := by
  have hr : s.recordFlush b e = s := by
    unfold State.recordFlush
    rcases hf with hf | hf
    · rw [hf]
    · split
      · rfl
      · rename_i o _
        have : (s.dispatcher.queue.map fun q => { q with wait := q.wait.record b o }) = s.dispatcher.queue := by
          refine (List.map_congr_left (g := id) fun q hq => ?_).trans (List.map_id _)
          have : q.wait.record b o = q.wait := by
            unfold Wait.record; split
            · rename_i os hw; exact absurd hw (hf q hq os)
            · rfl
          rw [this]; rfl
        unfold State.modDispatcher; dsimp only; rw [this]
  unfold State.settleWaits; dsimp only
  rw [hr]
  exact s.completeAll_unique h (waitEnding s b e) fun q c => waitEnding_tag

end Sys2Proof.Machine
end

