-- ==== Sys2Proof/Machine/Outputs.lean ====
section
/-! DEFINITION. What the part puts on its outputs, computed from its state: the command frame of a token bus in each phase (2.2,
12.2, R180) and the frame of a reply (10.2, 12.1, R166). The select outputs and ATTN are in Flags. -/

namespace Sys2Proof.Machine

/-- R180: a command frame, its check appended. -/
def checkedFrame (bytes : List Byte) : List Byte := bytes ++ [crc8 bytes]

/-- 12.2: a page's number. -/
def Page.code : Page → Byte
  | .identity => 0
  | .calibration => 1
  | .usage => 2

/-- 12.2: a mark's number. -/
def Mark.code : Mark → Byte
  | .spent => 0
  | .refill => 1

/-- R38 to R44, 12.2: the command frame sent at the start of a phase; none in BURN, and none in a phase that is not the
operation's. An ARM carries the counter index and its complement (R35). -/
def BusOp.commandFrame (op : BusOp) (p : Phase) : Option (List Byte) :=
  match op, p with
  | .identRead page, .reply => some (checkedFrame [0x10#8, page.code])
  | .nonceSend _ nonce, .acknowledgement => some (checkedFrame (0x20#8 :: beBytes 16 nonce.toNat))
  | .answerFetch _, .fetch => some (checkedFrame [0x21#8])
  | .advance index _, .arm => some (checkedFrame [0x30#8, byteOf index, ~~~byteOf index])
  | .advance index target, .load => some (checkedFrame ([0x31#8, byteOf index] ++ leBytes 2 target))
  | .advance index _, .confirm => some (checkedFrame [0x32#8, byteOf index])
  | .mark m, .reply => some (checkedFrame [0x40#8, m.code])
  | .checkRead index, .reply => some (checkedFrame [0x32#8, byteOf index])
  | _, _ => none

/-- The command frame whose reply, or whose end, a bus's transaction awaits. -/
def State.commandOn (s : State) (n : Bus) : Option (List Byte) :=
  match (s.bus n).current with
  | some t => t.request.op.commandFrame t.phase
  | none => none

/-- 12.1: the body of a reply frame. -/
def Reply.body (r : Reply) : List Byte := r.kind :: r.tag :: r.result.code :: r.payload

/-- 10.2, 12.1, R166: a reply's frame as it leaves the line. -/
def Reply.frame (r : Reply) : List Byte :=
  [0xC3#8, byteOf r.body.length] ++ r.body ++ beBytes 2 (crc16 r.body).toNat

/-- The frame being sent on the controller link, if any. -/
def State.frameOnLink (s : State) : Option (List Byte) := s.link.sending.map fun x => x.1.frame

end Sys2Proof.Machine
end

