-- ==== Sys2Proof/WellFormed.lean ====
section
/-! DEFINITION. Which commands stand for something that can reach the part: a request's payload is at most 200 bytes (R165, 12.1),
a frame whose CRC is checked has a body of 3 to 203 bytes and a CRC that disagrees (R166), an unknown kind is none of the
table's (R167), and a token's reply has at least one byte (R26: a reply that begins). The bounds on bay, bus and sector
numbers are in the operands' types. -/

namespace Sys2Proof

/-- R165, 12.1: the payload of a request. -/
def payloadFits (payload : List Byte) : Bool := decide (payload.length ≤ 200)

/-- R26: a reply that begins. -/
def replyBegins (frame : List Byte) : Bool := !frame.isEmpty

/-- R166: a complete frame whose CRC disagrees. -/
def crcDisagrees (body : List Byte) (crc : BitVec 16) : Bool :=
  decide (3 ≤ body.length) && decide (body.length ≤ 203) && Machine.crc16 body != crc

/-- R167: a kind that is not a request kind. -/
def kindUnknown (kind : Byte) : Bool := (Machine.kindOfCode kind).isNone

/-- Whether a command can reach the part. -/
def Instr.wellFormed : Instr → Bool
  | .coldReset _ => true
  | .slotTableReadDone => true
  | .startupFinish => true
  | .presenceRise _ => true
  | .presenceDrop _ => true
  | .settleTimerExpiry _ => true
  | .rechallengeTimerExpiry _ => true
  | .rechallengeStart _ => true
  | .postNextOperation _ => true
  | .busGrant _ => true
  | .restTimerExpiry _ => true
  | .tokenReplyTimeout _ => true
  | .identReadReply _ f => replyBegins f
  | .nonceSendAcknowledgement _ f => replyBegins f
  | .answerTimerExpiry _ => true
  | .answerFetchReply _ f => replyBegins f
  | .engineDone => true
  | .armReply _ f => replyBegins f
  | .loadReply _ f => replyBegins f
  | .burnEnd _ => true
  | .confirmReply _ f => replyBegins f
  | .markReply _ f => replyBegins f
  | .checkReadReply _ f => replyBegins f
  | .storeWriteDone _ => true
  | .storeWriteTimeout _ => true
  | .supplyWarnAsserted => true
  | .supplyCritAsserted => true
  | .supplyLineDeasserted _ => true
  | .saveDeadlineExpiry => true
  | .writerTakeRecord => true
  | .recordWriteDone _ => true
  | .recordWriteTimeout => true
  | .headerWriteDone _ => true
  | .headerWriteTimeout => true
  | .eraseDone _ _ => true
  | .eraseTimeout _ _ => true
  | .receiverGapTimeout => true
  | .linkStopBitError => true
  | .frameCrcMismatch body crc => crcDisagrees body crc
  | .unknownKindRequest kind _ _ p => kindUnknown kind && payloadFits p
  | .replySent => true
  | .ident _ _ p => payloadFits p
  | .status _ _ p => payloadFits p
  | .bayQuery _ _ p => payloadFits p
  | .historyQuery _ _ p => payloadFits p
  | .notices _ _ p => payloadFits p
  | .ackNotices _ _ p => payloadFits p
  | .faults _ _ p => payloadFits p
  | .usage _ _ p => payloadFits p
  | .levelSense _ _ p => payloadFits p
  | .flush _ _ p => payloadFits p
  | .release _ _ p => payloadFits p
  | .bayReset _ _ p => payloadFits p
  | .rechallenge _ _ p => payloadFits p
  | .configure _ _ p => payloadFits p
  | .setBands _ _ p => payloadFits p
  | .setClass _ _ p => payloadFits p
  | .hold _ _ p => payloadFits p
  | .setMask _ _ p => payloadFits p
  | .setLink _ _ p => payloadFits p
  | .lockLevel _ _ p => payloadFits p
  | .slotLoad _ _ p => payloadFits p
  | .slotRevoke _ _ p => payloadFits p
  | .linkByteReceived _ => true

end Sys2Proof
end

