-- ==== Sys2Proof/Tests/Slice0.lean ====
section
/-! SUPPORT. The model's own tests: an ill-formed command for each check of WellFormed; figures of the manual's worked cases; and,
for every obligation with hypotheses, a state and operands that meet them all together, clause by clause, at a boundary of
their range where there is one. Expected figures come from the manual's tables, or from the published check values of the
three cyclic checks. -/

namespace Sys2Proof.Tests

open Sys2Proof.Machine Sys2Proof.Safety

set_option Elab.async false

/-! ### WellFormed -/

theorem test_long_payload_refused : (Instr.usage 0 0 (List.replicate 201 0)).wellFormed = false := by decide +kernel
theorem test_longest_payload_taken : (Instr.usage 0 0 (List.replicate 200 0)).wellFormed = true := by decide +kernel
theorem test_empty_reply_refused : (Instr.armReply 0 []).wellFormed = false := by decide
theorem test_agreeing_crc_refused :
    (Instr.frameCrcMismatch [0x31, 0x32, 0x33, 0x34, 0x35, 0x36, 0x37, 0x38, 0x39] 0x29B1).wellFormed = false := by
  decide +kernel
theorem test_short_body_refused : (Instr.frameCrcMismatch [1, 2] 0).wellFormed = false := by decide
theorem test_long_body_refused : (Instr.frameCrcMismatch (List.replicate 204 1) 0).wellFormed = false := by decide +kernel
theorem test_known_kind_refused : (Instr.unknownKindRequest 0x31 0 0 []).wellFormed = false := by decide
theorem test_unknown_kind_taken : (Instr.unknownKindRequest 0x32 0 0 []).wellFormed = true := by decide
theorem test_unknown_kind_long_payload_refused :
    (Instr.unknownKindRequest 0x32 0 0 (List.replicate 201 0)).wellFormed = false := by decide +kernel

/-! ### Cyclic checks: the published check values, over the nine digits 1 to 9 -/

/-- The nine digits. -/
def digits : List Byte := [0x31, 0x32, 0x33, 0x34, 0x35, 0x36, 0x37, 0x38, 0x39]

theorem test_crc16 : crc16 digits = 0x29B1 := by decide +kernel
theorem test_crc8 : crc8 digits = 0xF4 := by decide +kernel
theorem test_crc32 : crc32 digits = 0xCBF43926 := by decide +kernel

/-! ### Worked figures -/

/-- The calibration copy of 4.11. -/
def copy411 : CalibrationCopy := { vS := 400, vM := 1200, vL := 2800, k := 40, vp := 40000 }

/-- The first entry of 4.11. -/
def entry411 : UsageEntry :=
  { bay := 3, small := 1500000, medium := 2000000, large := 900000, spit := 50000, purges := 1, temperature := 41 }

theorem test_stages_of_4_11 :
    rawVolume copy411 entry411 = 5580000000 ∧ temperatureFactor 40 41 = 10640 ∧
      correctedVolume copy411 entry411 = 59371200000000 ∧ purgeVolume copy411 entry411 = 40000000000000 ∧
      accumulator 35000000000000 copy411 entry411 = 134371200000000 := by decide

theorem test_hot_head_of_4_12 : temperatureFactor 100 95 = 12000 ∧ temperatureFactor 100 5 = 8500 := by decide

/-- An account at the end of its cartridge (4.12). -/
def account412 : Account := { Account.cold with capacity := 5000, committed := 4998, pending := 1, live := true }

theorem test_end_of_cartridge_4_12 :
    (account412.stage7 3).pending = 2 ∧ (account412.stage7 3).overdraw = 2 ∧ ((account412.stage7 3).stage7 5).overdraw = 7 := by
  decide

/-- Bay 7's account of 5.7, with a remaining of `r`. -/
def account57 (r : Nat) : Account :=
  { Account.cold with
    capacity := 5000
    committed := 5000 - r
    live := true
    bands := [{ bound := 100, mode := .through }, { bound := 4, mode := .frozen }] }

/-- The settings of 5.7. -/
def settings57 : Settings := { Settings.default with bands := [{ low := 400, high := 2000, mode := .deferred }] }

theorem test_modes_of_5_7 :
    effectiveMode settings57 (account57 3000) = .deferred ∧ effectiveMode settings57 (account57 1500) = .deferred ∧
      effectiveMode settings57 (account57 450) = .through ∧ effectiveMode settings57 (account57 300) = .through ∧
      effectiveMode settings57 (account57 20) = .frozen ∧
      effectiveMode { settings57 with defaultMode := .through } (account57 1500) = .deferred := by decide

theorem test_turn_of_R29 : turnOrder 1 6 = [7, 4, 5, 6] := by decide

theorem test_rate_of_10_8 : appliedRate 500000 = 460800 := by decide

/-- A history record with every conditional field. -/
def fullRecord : HistoryRecord where
  serial := 1
  classCode := 2
  highWater := 65535
  marks := { spent := true, refill := false }
  retired := true
  lastVerdict := .genuine
  lastSeen := 4294967295
  debt := some (65535, 99999999999999)
  doubt := some { base := 65535, amount := 65535 }

theorem test_record_sizes_of_R144 :
    (JournalRecord.evict 1).bytes.length = 12 ∧ (JournalRecord.history fullRecord).bytes.length = 44 := by decide +kernel

theorem test_no_word_spells_a_command : decodeTableWord 8 0 = none := by decide

/-- R180: each command frame carries its check; ARM's complement (12.2). The frame of an ADVANCE's LOAD has the target low byte
first. -/
theorem test_command_frames :
    (BusOp.advance 15 0x04B3).commandFrame .arm = some (checkedFrame [0x30, 0x0F, 0xF0]) ∧
      (BusOp.advance 15 0x04B3).commandFrame .load = some (checkedFrame [0x31, 0x0F, 0xB3, 0x04]) ∧
      (BusOp.advance 15 0x04B3).commandFrame .burn = none ∧ checkedFrame digits = digits ++ [0xF4] := by decide +kernel

/-- R176, 12.1: ATTN in STATUS, numbered as listed, is 1 deasserted and 0 asserted. -/
theorem test_status_attn :
    (statusReply State.reset)[40]? = some 1 ∧ (statusReply (State.reset.raisePart .saveEntered))[40]? = some 0 := by
  decide +kernel

/-- 10.2: an empty refusal's frame takes 7 bytes. -/
theorem test_reply_frame :
    ({ kind := 0x81, tag := 5, result := .busy, payload := [], queued := false, newRate := none } : Reply).frame.take 5 =
      [0xC3, 3, 0x81, 5, 0x10] := by decide +kernel

/-! ### States -/

/-- The serial of 1.12. -/
def serialA : Serial := 0x00A3F1C200471B9E

/-- An identity page's bytes (R32). -/
def identityBytes : List Byte := leBytes 8 serialA.toNat ++ leBytes 2 0x0102 ++ leBytes 2 5000 ++ leBytes 4 7 ++ [1]

/-- A calibration page's bytes, with no band (R33). -/
def calibrationBytes : List Byte :=
  leBytes 2 400 ++ leBytes 2 1200 ++ leBytes 2 2800 ++ leBytes 2 40 ++ leBytes 2 40000 ++ [25, 1, 0]

/-- A usage page's bytes: index 15, counter `c`, no mark (R34). -/
def usageBytes (c : Nat) : List Byte := [15] ++ leBytes 2 c ++ [0, 0]

/-- The identity page those bytes hold. -/
def pageI : IdentityPage :=
  { serial := serialA, classCode := 0x0102, capacity := 5000, issuerTag := 7, version := 1, bytes := identityBytes }

/-- The calibration page those bytes hold. -/
def pageC : CalibrationPage :=
  { vS := 400, vM := 1200, vL := 2800, k := 40, vp := 40000, programTime := 25, computeTime := 1, bands := [],
    bytes := calibrationBytes }

/-- The usage page those bytes hold. -/
def pageU (c : Nat) : UsagePage :=
  { index := 15, counter := c, spent := false, refill := false, writeProtect := false }

theorem test_pages_read :
    readIdentityPage identityBytes = some pageI ∧ readCalibrationPage calibrationBytes = some pageC ∧
      readUsagePage 5000 (usageBytes 5000) = some (pageU 5000) ∧ readUsagePage 5000 (usageBytes 5001) = none := by
  decide +kernel

/-- A slot loaded with issuer tag 7. -/
def slotA : Slot := { state := .enabled, tag := some 7, secret := some 9 }

/-- A part in NORMAL with slot 3 loaded and the factory strap present. -/
def ready : State :=
  { State.reset with
    supply := { State.reset.supply with state := .normal }
    digest := { State.reset.digest with
      slots := #v[Slot.emptySlot, Slot.emptySlot, Slot.emptySlot, slotA]
      slotsRead := true }
    journal := { State.reset.journal with startupDone := true }
    dispatcher := { State.reset.dispatcher with strapFloor := 0 } }

/-- A bay record in a state, with all three pages as read. -/
def bayIn (t : BayState) : BayRec :=
  { BayRec.cleared 0 with
    state := t, identityPage := some pageI, calibrationPage := some pageC, usagePage := some (pageU 1200)
    slot := some 3, serial := some serialA }

/-- A live METERED account with 4 quanta pending. -/
def accountA : Account :=
  { Account.cold with capacity := 5000, calibration := some copy411, committed := 1200, pending := 4, live := true, index := 15 }

/-- The same account with its commit under way. -/
def accountB (c : CommitState) : Account := { accountA with commitState := c, inFlight := 3, target := 1203 }

/-- Bay 11 in a state with an account. -/
def seated (t : BayState) (a : Account) : State := withAccount (withBayRec ready 11 (bayIn t)) 11 a

/-- Bay 11's transaction in a phase. -/
def running (op : BusOp) (p : Phase) : Transaction :=
  { bay := 11, request := { op := op, attempt := 1 }, phase := p, programTime := none, discarded := false }

/-- Bus 2 with a transaction of bay 11. -/
def busy (op : BusOp) (p : Phase) (s : State) : State :=
  withBusState s 2 { lastGranted := 11, current := some (running op p), restTimer := none }

/-- Bus 2 resting. -/
def resting (s : State) : State := withBusState s 2 { lastGranted := 11, current := none, restTimer := some 1 }

/-- The history entry of the serial, bound to bay 11. -/
def historyA : HistoryEntry := { HistoryEntry.created 0 serialA 0x0102 with highWater := 1200, bay := some 11 }

/-- With that entry in the table. -/
def known (s : State) : State := { s with refill := { table := [historyA], sequence := 4294967295 } }

/-- A queue of `n` requests with tags 1 to `n`, each completed and waiting for its reply to leave. -/
def queued (n : Nat) (s : State) : State :=
  { s with dispatcher := { s.dispatcher with
      queue := (List.range n).map fun i =>
        { kind := .status, tag := BitVec.ofNat 8 (i + 1), level := 0, payload := [], wait := .replied } } }

/-- With one more request in the queue, waiting as `w` says; its tag is its kind's code. -/
def asking (k : RequestKind) (w : Wait) (s : State) : State :=
  { s with dispatcher := { s.dispatcher with
      queue := s.dispatcher.queue ++ [{ kind := k, tag := k.code, level := 0, payload := [11], wait := w }] } }

/-- `admits`, computed. -/
def takes (s : State) (k : RequestKind) (tag claimed : Byte) (payload : List Byte) : Bool :=
  decide (s.dispatcher.queue.length < 8) && (s.dispatcher.queue.all fun e => e.tag != tag) &&
    decide (effectiveLevel s.dispatcher claimed ≤ k.level) && (s.supply.state != .starting || k = .ident || k = .status) &&
    (match k.fixedLength with | some n => decide (payload.length = n) | none => true)

theorem admits_of_takes {s : State} {k : RequestKind} {tag claimed : Byte} {p : List Byte} (h : takes s k tag claimed p = true) :
    admits s k tag claimed p := by
  simp only [takes, Bool.and_eq_true, decide_eq_true_eq, List.all_eq_true, bne_iff_ne, Bool.or_eq_true] at h
  obtain ⟨⟨⟨⟨h1, h2⟩, h3⟩, h4⟩, h5⟩ := h
  refine ⟨h1, h2, h3, fun hs => ?_, fun n hn => ?_⟩
  · rcases h4 with (h | h) | h
    · exact absurd hs h
    · exact .inl h
    · exact .inr h
  · rw [hn] at h5; exact of_decide_eq_true h5

theorem none_of {α : Type} {P : α → Prop} {o : Option α} (h : o = none) : ∀ a, o = some a → P a := by
  intro a ha; rw [h] at ha; exact nomatch ha

theorem some_of {α : Type} {P : α → Prop} {o : Option α} {a : α} (h : o = some a) (hp : P a) : ∀ x, o = some x → P x := by
  intro x hx; rw [h] at hx; exact Option.some.inj hx ▸ hp

theorem only_of {s : State} {b : Bay} {x : Serial} (h : s.serialRead b = some x)
    (hc : ∀ c, c ≠ b → (s.account c).live = true → s.serialRead c ≠ some x) : onlyAccount s b := by
  intro y hy; rw [h] at hy; exact Option.some.inj hy ▸ hc

theorem not_copying {c : Compaction} (h : c = .idle) : ∀ y ys, c ≠ .copying y ys := by
  intro y ys; rw [h]; exact fun e => nomatch e

/-! ### Witnesses: the step and the invariants -/

theorem test_witness_StepRunsTheFrontCommandOrTicks : State.reset.pending = [] := rfl

/-- A part with a command waiting and every block in use. -/
def waiting (c : Instr) : State :=
  { busy (.advance 15 1203) .confirm (known (seated .admitted (accountB .advance))) with pending := [c] }

theorem test_witness_NoticeUnitStaysSound :
    noticeSound (waiting .supplyWarnAsserted) ∧ ∃ t, step (waiting .supplyWarnAsserted) = .next t :=
  ⟨by unfold noticeSound; decide +kernel, _, rfl⟩

theorem test_witness_FlashStaysCanonical :
    flashSound (waiting .writerTakeRecord) ∧ ∃ t, step (waiting .writerTakeRecord) = .next t :=
  ⟨by unfold flashSound; decide +kernel, _, rfl⟩

theorem test_witness_RequestQueueStaysSound :
    queueSound (queued 8 (waiting (.status 9 0 []))) ∧ ∃ t, step (queued 8 (waiting (.status 9 0 []))) = .next t :=
  ⟨by unfold queueSound; decide +kernel, _, rfl⟩

theorem test_witness_ResiduesStayBelowAQuantum :
    law3 (waiting (.presenceDrop 11)) ∧ ∃ t, step (waiting (.presenceDrop 11)) = .next t :=
  ⟨by unfold law3; decide +kernel, _, rfl⟩

theorem test_witness_BusTransactionsStayTheirOwn :
    law9 (waiting (.busGrant 2)) ∧ ∃ t, step (waiting (.busGrant 2)) = .next t := by
  refine ⟨fun n t h => ?_, _, rfl⟩
  have key : ∀ n, (((waiting (.busGrant 2)).bus n).current.all fun t =>
      decide (busOf t.bay = n) && decide (((waiting (.busGrant 2)).port t.bay).posted = none)) = true := by decide +kernel
  have := key n
  rw [h] at this
  simpa using this

/-! ### Witnesses: reset, bays -/

/-- The records of `flashed`. -/
def records : List JournalRecord := [.evict 1, .history fullRecord]

/-- A part whose last sector holds those records after a header with the largest sequence number. -/
def flashed : State :=
  { State.reset with journal := { State.reset.journal with
      flash := Memory.writeBytes [] (4096 * 7) (headerBytesOf 4294967295 ++ records.flatMap JournalRecord.bytes) } }

theorem test_witness_ColdResetClearsEveryBlock :
    (State.reset.digest.writing = none ∧ State.reset.journal.writer = .idle ∧ State.reset.journal.flash = [] ∧
      ∀ x : Sector, (State.reset.sector x).torn ≠ some 0) ∧
    (flashed.journal.writer = .idle ∧ (∀ y : Sector, (flashed.sector y).torn = none) ∧ records.length ≤ 192 ∧
      (∀ r ∈ records, recordFits r) ∧
      flashed.journal.flash.readBytes (4096 * 7) 4096 = headerBytesOf 4294967295 ++ records.flatMap JournalRecord.bytes ++
        List.replicate (4080 - (records.flatMap JournalRecord.bytes).length) 0xFF#8 ∧
      ∀ y : Sector, y ≠ 7 → flashed.journal.flash.sectorBlank y = true) := by
  refine ⟨by decide +kernel, by decide +kernel, by decide +kernel, by decide, fun r hr => ?_, ?_, by decide +kernel⟩
  rcases List.mem_cons.mp hr with rfl | hr <;> [skip; rcases List.mem_singleton.mp hr with rfl]
  · trivial
  · exact ⟨by decide, by decide, some_of rfl (by decide), some_of rfl (by decide)⟩
  · show flashed.journal.flash.readBytes (4096 * 7) (72 + 4024) = _
    rw [Memory.readBytes_add, Memory.readBytes_above (a := 4096 * 7 + 72) (by decide +kernel)]
    exact congrArg₂ (· ++ ·) (by decide +kernel) (congrArg₂ List.replicate (by decide +kernel) rfl)

/-- A part in STARTING with `n` ERASED sectors, the rest FAILED, and its slot table read or not. -/
def starting (n : Nat) (read : Bool) : State :=
  { State.reset with
    digest := { State.reset.digest with slotsRead := read }
    journal := { State.reset.journal with
      sectors := Vector.ofFn fun i : Sector =>
        { state := if i.val < n then .erased else .failed, sequence := none, torn := none, erasing := none } } }

theorem test_witness_StartupFinishEndsStarting :
    (∀ s ∈ [starting 2 false, starting 2 true, starting 1 true], s.supply.state = .starting ∧ s.journal.startupDone = false ∧
      s.journal.mode = .normal ∧ s.journal.compaction = .idle ∧
      ∀ x : Sector, (s.sector x).state ≠ .invalid ∧ (s.sector x).erasing = none) ∧
    ((starting 2 false).journal.erasedCount = 2 ∧ (starting 2 false).digest.slotsRead = false) ∧
    ((starting 2 true).journal.erasedCount = 2 ∧ (starting 2 true).digest.slotsRead = true ∧
      (starting 2 true).supply.warn = false ∧ (starting 2 true).supply.crit = false) ∧
    ((starting 1 true).journal.erasedCount = 1 ∧ ∀ x : Sector, ((starting 1 true).sector x).state ≠ .full) := by
  decide +kernel

theorem test_witness_PresenceRiseStartsSettling :
    (ready.supply.state ≠ .starting ∧ (ready.bay 11).state = .vacant) ∧ State.reset.supply.state = .starting ∧
      ((seated .admitted accountA).bay 11).state ≠ .vacant := by decide +kernel

theorem test_witness_PresenceDropWithdrawsTheBay :
    (ready.bay 11).state = .vacant ∧ ((seated .settling Account.cold).bay 11).state = .settling ∧
      (let s := waiting .engineDone
       (s.bay 11).state ≠ .vacant ∧ (s.bay 11).state ≠ .settling ∧ (s.account 11).live = true ∧
        (s.bus (busOf 11)).current = some (running (.advance 15 1203) .confirm)) ∧
      ((seated .admitted accountA).bus (busOf 11)).current = none := by decide +kernel

/-- Bay 11 in a state, with a FLUSH, a RELEASE, a RECHALLENGE and a FLUSH for ALL that wait on it, and a RELEASE that waits on bay 3. -/
def waited (t : BayState) : State :=
  let open11 : Vector (Option FlushOutcome) 12 := (Vector.replicate 12 (some .nothing)).set 11 none
  let entry (w : Wait) (tag : Byte) : QueueEntry := { kind := .release, tag := tag, level := 0, payload := [11], wait := w }
  let s := queued 3 (seated t accountA)
  { s with dispatcher := { s.dispatcher with queue := s.dispatcher.queue ++
      [entry (.flush 11) 4, entry (.release 11) 5, entry (.rechallenge 11) 6, entry (.flushAll open11) 7, entry (.release 3) 8] } }

/-- R15, R16, R20, R92, R103: requests of every kind that wait on a bay, its account the only one of its serial. -/
theorem test_witness_failed_waits :
    tagsUnique (waited .admitted) ∧ onlyAccount (waited .admitted) 11 ∧
      ((waited .admitted).dispatcher.queue.filter fun e => e.wait ≠ .replied ∧ waitAfterFailure 11 e.wait = .replied).length = 4 ∧
      ((waited .admitted).bay 11).state ≠ .vacant ∧ ((waited .admitted).bay 11).state ≠ .settling := by
  refine ⟨by unfold tagsUnique; decide +kernel, only_of (x := serialA) (by decide +kernel) (by decide +kernel), ?_⟩
  decide +kernel

theorem test_witness_WithdrawalMovesTheLiability :
    let s := waiting .engineDone
    (s.bay 11).state ≠ .vacant ∧ (s.bay 11).state ≠ .settling ∧ (s.port 11).posted = none ∧ (s.account 11).live = true ∧
      s.serialRead 11 = some serialA ∧ s.entry serialA = some historyA ∧
      ∀ c, c ≠ 11 → s.serialRead c = some serialA → (s.account c).live = false := by decide +kernel

/-- A state whose bay 11 has its settle timer, its re-challenge timer and its answer timer at 0. -/
def timed (t : BayState) (u : SupplyState) : State :=
  withPort (withBayRec { ready with supply := { ready.supply with state := u } } 11
    { bayIn t with settleTimer := some 0, rechallengeTimer := some 0 }) 11 { Port.cleared with answerTimer := some 0 }

theorem test_witness_TimerExpiriesComplete :
    ∀ u ∈ [SupplyState.normal, .save, .expired], ((timed .settling u).bay 11).state = .settling ∧
      ((timed .settling u).bay 11).settleTimer.isSome = true ∧ (timed .settling u).supply.state = u ∧
      ((timed .admitted u).bay 11).rechallengeTimer.isSome = true ∧ ((timed .challenging u).port 11).answerTimer.isSome = true := by
  decide +kernel

/-- Bay 11 ADMITTED with its re-challenge WAITING; its slot as given. -/
def rechallenging (k : Slot) : State :=
  withBayRec { seated .admitted accountA with digest := { ready.digest with slots := ready.digest.slots.set 3 k } } 11
    { bayIn .admitted with rechallenge := .waiting }

theorem test_witness_WaitingRechallengeStarts :
    (∀ k ∈ [slotA, { slotA with state := .revoked }], ((rechallenging k).bay 11).drawable = true ∧
      ((rechallenging k).bay 11).rechallenge = .waiting ∧ ((rechallenging k).account 11).commitState = .idle ∧
      ((rechallenging k).bay 11).slot = some 3) ∧
    (((rechallenging slotA).slot 3).state = .enabled ∧ (rechallenging slotA).supply.state = .normal) ∧
    ((rechallenging { slotA with state := .revoked }).slot 3).state ≠ .enabled := by decide +kernel

/-! ### Witnesses: the buses -/

/-- The common hypotheses of a bay that posts. -/
theorem posting (s : State) (hp : (s.port 11).posted = none) (hc : (s.bus (busOf 11)).current = none)
    (hf : noGrantDue s 11) :
    (s.port 11).posted = none ∧ (∀ t, (s.bus (busOf 11)).current = some t → t.bay ≠ 11) ∧
      noGrantDue s 11 := ⟨hp, none_of hc, hf⟩

/-- Bus 2 free. -/
def freed (s : State) : State := withBusState s 2 { lastGranted := 11, current := none, restTimer := none }

/-- Bay 10 with a request posted. -/
def rivalled (s : State) : State := withPort s 10 { Port.cleared with posted := some { op := .checkRead 15, attempt := 1 } }

/-- The engine computing for another bay, and the last draw number next. -/
def engaged (s : State) : State :=
  { s with digest := { s.digest with computing := some { bay := 0, answer := 5, discarded := false }, drawNumber := 2 ^ 48 - 1 } }

/-- Bay 11 in an admission's or a re-challenge's exchange, its context open as a kind or closed. -/
def exchanger (k : ChallengeKind) (c : Option ChallengeKind) : State :=
  let s := resting (seated (if k = .admission then .challenging else .admitted) accountA)
  withContext (engaged (withBayRec s 11
    { s.bay 11 with rechallenge := if k = .admission then .idle else .running, fetchDue := true })) 11
    { Context.closed with kind := c }

/-- Bay 11 with a commit of the SAVE demand due, a MARK that stands and a re-challenge that runs. -/
def saving : State :=
  let s := exchanger .rechallenge none
  { withAccount s 11 { accountA with drain := { accountA.drain with save := true } } with
    orders := State.reset.orders.set 11 [{ mark := .spent, attempts := 2 }] }

theorem test_witness_BayPostsTheFirstOperationDue :
    (let s := freed (rivalled (seated .admitted accountA))
     (s.port 11).posted = none ∧ (s.bus (busOf 11)).current = none ∧ (s.nextDue 11).isSome = true ∧
      ∃ g, exec (.busGrant (busOf 11)) s = .next g) ∧
    (∀ s ∈ [freed (seated .admitted (accountB .check)), freed (seated .admitted accountA), freed saving,
        freed (exchanger .rechallenge none), freed (exchanger .admission (some .admission)),
        { rivalled (seated .admitted accountA) with supply := { ready.supply with state := .expired } },
        resting (seated .admitted (accountB .check)), resting (seated .admitted accountA), resting (seated .identifying Account.cold),
        { resting (seated .admitted accountA) with orders := State.reset.orders.set 11 [{ mark := .spent, attempts := 2 }] },
        saving, exchanger .admission none, exchanger .rechallenge none, exchanger .admission (some .admission),
        exchanger .rechallenge (some .rechallenge)],
      (s.port 11).posted = none ∧ (∀ t, (s.bus (busOf 11)).current = some t → t.bay ≠ 11) ∧ noGrantDue s 11) ∧
    (let s := resting (seated .admitted (accountB .check))
     (s.bay 11).drawable = true ∧ (s.account 11).live = true ∧ (s.account 11).commitState = .check) ∧
    (let s := { resting (seated .admitted accountA) with orders := State.reset.orders.set 11 [{ mark := .spent, attempts := 2 }] }
     s.markOrders 11 = [{ mark := .spent, attempts := 2 }] ∧ (s.bay 11).state.mayMark = true ∧
      (s.account 11).commitState ≠ .check ∧ (s.account 11).drain.save = false) ∧
    (let s := resting (seated .admitted accountA)
     s.markOrders 11 = [] ∧ s.settings.batch = (s.account 11).pending ∧ (s.bay 11).rechallenge ≠ .running) ∧
    (∀ s ∈ [resting (seated .admitted accountA), saving], (s.bay 11).drawable = true ∧ (s.account 11).live = true ∧
      (s.account 11).metering = .metered ∧ (s.account 11).mode ≠ .frozen ∧ (s.account 11).commitState = .idle ∧
      0 < (s.account 11).pending) ∧
    (saving.account 11).drain.save = true ∧
    ((resting (seated .identifying Account.cold)).bay 11).state = .identifying ∧
    (∀ k ∈ [ChallengeKind.admission, .rechallenge], ∀ c ∈ [none, some k],
      let s := exchanger k c
      (k = .admission → (s.bay 11).state = .challenging) ∧
      (k = .rechallenge → (s.bay 11).drawable = true ∧ (s.bay 11).rechallenge = .running ∧ (s.account 11).commitState ≠ .check ∧
        (s.account 11).drain.save = false ∧ s.markOrders 11 = []) ∧
      (s.context 11).kind = c ∧ (s.bay 11).fetchDue = true ∧ s.digest.computing.isSome = true ∧
      (s.bay 11).identityPage.isSome = true ∧ (s.bay 11).calibrationPage.isSome = true ∧ (s.bay 11).slot.isSome = true) := by
  refine ⟨⟨by decide +kernel, by decide +kernel, by decide +kernel, _, rfl⟩, fun s hs => posting s ?_ ?_ ?_, ?_, ?_, ?_, ?_, ?_, ?_, ?_⟩
  · revert s; decide +kernel
  · revert s; decide +kernel
  · unfold noGrantDue; revert s; decide +kernel
  all_goals decide +kernel

/-- The engine computing for another bay. -/
def computing (c : Computing) (s : State) : State := { s with digest := { s.digest with computing := some c } }

theorem test_witness_ChallengingBayOpensAnExchange :
    ∀ k ∈ [ChallengeKind.admission, .rechallenge],
      (∀ free : Bool, let s := if free then freed (exchanger k none) else exchanger k none
       ((s.port 11).posted = none ∧ (∀ t, (s.bus (busOf 11)).current = some t → t.bay ≠ 11) ∧ noGrantDue s 11) ∧
       ((s.bay 11).state = .challenging ∧ k = .admission ∨
        (s.bay 11).drawable = true ∧ (s.bay 11).rechallenge = .running ∧ k = .rechallenge ∧ (s.account 11).commitState ≠ .check ∧
          (s.account 11).drain.save = false ∧ s.markOrders 11 = []) ∧
       (s.context 11).kind = none ∧ s.digest.computing.isSome = true ∧ (s.bay 11).identityPage = some pageI ∧
       (s.bay 11).calibrationPage = some pageC ∧ (s.bay 11).slot = some 3 ∧ s.digest.drawNumber < 2 ^ 48) ∧
      ∀ x ∈ [slotA, { slotA with state := .revoked }],
        let s := exchanger k none
        let d : Digest := { s.digest with computing := none, slots := s.digest.slots.set 3 x }
        d.queue = [] ∧ ((({ s with digest := d } : State).slot 3).state = .enabled ↔ x = slotA) ∧
          (({ s with digest := d } : State).slot 3).secret = some 9 ∧ (({ s with digest := d } : State).context 11).kind = none := by
  intro k hk
  refine ⟨fun free => ⟨posting _ ?_ ?_ ?_, ?_⟩, ?_⟩
  case refine_3 => unfold noGrantDue; revert k free; decide +kernel
  case refine_5 => revert k; decide +kernel
  all_goals revert k free; decide +kernel

/-- Bays 10 and 11 with one operation each posted, each account with the SAVE demand, bay 11 with more pending. -/
def posted (p q : BusOp) : State :=
  withPort (withPort (withAccount (seated .admitted { accountA with drain := { accountA.drain with save := true } }) 10
    { accountA with pending := 3, drain := { accountA.drain with save := true } }) 10 { Port.cleared with posted := some { op := p, attempt := 1 } }) 11
    { Port.cleared with posted := some { op := q, attempt := 1 } }

theorem test_witness_ArbiterChoosesByClassThenTurn :
    (∀ k : Fin 4, (ready.port (bayOn 2 k)).posted = none) ∧
    ((posted (.advance 15 1) (.advance 15 1204)).choice 2 = some 11 ∧
      requestClass ((posted (.advance 15 1) (.advance 15 1204)).account 11) { op := .advance 15 1204, attempt := 1 } = 2) ∧
    ((posted (.identRead .usage) (.identRead .identity)).choice 2 = some 10 ∧
      requestClass ((posted (.identRead .usage) (.identRead .identity)).account 10)
        { op := .identRead .usage, attempt := 1 } ≠ 2) := by decide +kernel

theorem test_witness_GrantMakesTheTransaction :
    (let s := posted (.advance 15 1) (.advance 15 1204)
     (s.bus 2).current = none ∧ (s.bus 2).restTimer = none ∧ s.supply.state ≠ .expired ∧ s.choice 2 = some 11 ∧
      (s.port 11).posted = some { op := .advance 15 1204, attempt := 1 }) ∧
    ((busy (.checkRead 15) .reply ready).bus 2).current.isSome = true ∧ ((resting ready).bus 2).restTimer.isSome = true ∧
      (timed .admitted .expired).supply.state = .expired := by decide +kernel

/-- Bay 11's transaction, discarded or not. -/
def discardable (d : Bool) (op : BusOp) (p : Phase) (s : State) : State :=
  withBusState s 2 { lastGranted := 11, current := some { running op p with discarded := d }, restTimer := none }


theorem fails_in_time (s : State) (d : Bool) (op : BusOp) (p : Phase) (h : p ≠ .burn) :
    transactionFails s (.tokenReplyTimeout 2) 2 { running op p with discarded := d } .noResponse := .inl ⟨rfl, h, rfl⟩

/-- R26, R180: one failing reply of each form. -/
theorem test_failing_replies (s : State) (d : Bool) :
    transactionFails s (.armReply 2 []) 2 { running (.advance 15 1203) .arm with discarded := d } .frameError ∧
    (transactionFails s (.markReply 2 (tokenFrame 4 [])) 2 (running (.mark .spent) .reply) .frameError ∧
      transactionFails s (.markReply 2 (tokenFrame 2 [0])) 2 (running (.mark .spent) .reply) .frameError ∧
      transactionFails s (.checkReadReply 2 (tokenFrame 0 [0])) 2 (running (.checkRead 15) .reply) .frameError ∧
      transactionFails s (.checkReadReply 2 (tokenFrame 2 [])) 2 (running (.checkRead 15) .reply) .frameError) ∧
    transactionFails s (.loadReply 2 (tokenFrame 1 [])) 2 (running (.advance 15 1203) .load) .refused ∧
    transactionFails (withPort s 11 { Port.cleared with fetchCount := 4 }) (.answerFetchReply 2 (tokenFrame 3 [])) 2
      (running (.answerFetch .admission) .fetch) .noResponse ∧
    transactionFails s (.confirmReply 2 (tokenFrame 0 (leBytes 2 1204))) 2 (running (.advance 15 1203) .confirm) .verifyMismatch := by
  refine ⟨.inr ⟨[], rfl, .inl ⟨rfl, nofun⟩⟩, ⟨.inr ⟨_, rfl, .inr (.inl ⟨4, [], rfl, rfl, .inl (by decide)⟩)⟩,
    .inr ⟨_, rfl, .inr (.inl ⟨2, [0], rfl, rfl, .inr (.inl (by decide))⟩)⟩,
    .inr ⟨_, rfl, .inr (.inl ⟨0, [0], rfl, rfl, .inr (.inr (.inl ⟨rfl, by simp [contentFails, running]⟩))⟩)⟩,
    .inr ⟨_, rfl, .inr (.inl ⟨2, [], rfl, rfl, .inr (.inr (.inr ⟨rfl, by decide⟩))⟩)⟩⟩,
    .inr ⟨_, rfl, .inr (.inr (.inl ⟨rfl, rfl⟩))⟩,
    .inr ⟨_, rfl, .inr (.inr (.inr (.inl ⟨rfl, rfl, fun _ => ?_⟩)))⟩,
    .inr ⟨_, rfl, .inr (.inr (.inr (.inr ⟨15, 1203, leBytes 2 1204, rfl, rfl, rfl, rfl, rfl, by decide⟩)))⟩⟩
  simp [withPort, State.port, running]

theorem test_witness_ReplyTimeoutFailsTheTransaction :
    (∀ d ∈ [true, false], ∀ n ∈ [1, 2],
      let s := discardable d (.identRead .usage) .reply (withBayRec ready 11 { bayIn .identifying with readAttempts := n })
      (s.bus 2).current = some { running (.identRead .usage) .reply with discarded := d } ∧ busOf 11 = 2 ∧
        (s.bay 11).readAttempts = n ∧ (s.bay 11).serial = some serialA) ∧
    ∀ s, transactionFails s (.tokenReplyTimeout 2) 2 { running (.identRead .usage) .reply with discarded := true } .noResponse ∧
      transactionFails s (.tokenReplyTimeout 2) 2 { running (.identRead .usage) .reply with discarded := false } .noResponse :=
  ⟨by decide +kernel, fun s => ⟨fails_in_time s _ _ _ nofun, fails_in_time s _ _ _ nofun⟩⟩

/-- Bay 11 IDENTIFYING with a reject reason and a kept serial, its page read running, one entry in the table. -/
def identifying (p : Page) (why : RejectReason) (kept : Option Serial) (h : HistoryEntry) : State :=
  busy (.identRead p) .reply
    { withBayRec ready 11 { bayIn .identifying with rejectReason := why, serial := kept } with
      refill := { table := [h], sequence := 4294967295 } }

theorem test_witness_PageReadsIdentifyTheCartridge :
    (∀ p ∈ [Page.identity, .calibration, .usage],
      ((identifying p .none none historyA).bus 2).current = some (running (.identRead p) .reply) ∧
        (running (.identRead p) .reply).phase = .reply ∧ (running (.identRead p) .reply).discarded = false) ∧
    (let s := identifying .identity .none none historyA
     readIdentityPage identityBytes = some pageI ∧ checksPass s 11 pageI 3 ∧
      ((withBayRec s 11 { s.bay 11 with expectedClass := 0x0103 }).bay 11).expectedClass ≠ 0 ∧
      ((withBayRec s 11 { s.bay 11 with expectedClass := 0x0103 }).bay 11).expectedClass ≠ pageI.classCode ∧
      (s.bay 11).expectedClass = 0 ∧
      ∀ k : SlotNo, (({ s with digest := { s.digest with slots := s.digest.slots.set 3 Slot.emptySlot } } : State).slot k).state ≠ .enabled) ∧
    readCalibrationPage calibrationBytes = some pageC ∧
    readUsagePage pageI.capacity (usageBytes 5000) = some (pageU 5000) ∧
    ∀ why ∈ [RejectReason.none, .wrongClass, .unknownIssuer], ∀ n ∈ [0, serialA.toNat, 5],
      ∀ h ∈ [{ historyA with bay := none, debtQuanta := 3, doubt := some { base := 4998, amount := 3 } }, historyA,
        { historyA with bay := some 0 }, { historyA with serial := 5 }],
      let kept := if n = 0 then none else some (BitVec.ofNat 64 n)
      let s := identifying .usage why kept h
      (s.bay 11).identityPage = some pageI ∧ (s.bay 11).rejectReason = why ∧ (s.bay 11).serial = kept ∧
        (s.account 11).live = false ∧ s.entry pageI.serial = if h.serial = 5 then none else some h := by
  unfold checksPass; decide +kernel

theorem test_witness_ChallengeRepliesAdvanceTheExchange :
    (∀ d ∈ [true, false], ∀ r ∈ [bayIn .challenging, BayRec.cleared 0],
      let s := discardable d (.nonceSend .admission 5) .acknowledgement (withBayRec ready 11 r)
      (s.bus 2).current = some { running (.nonceSend .admission 5) .acknowledgement with discarded := d } ∧
        (BusOp.nonceSend .admission 5).kind = .nonceSend ∧
        (s.bay 11).calibrationPage = if r = BayRec.cleared 0 then none else some pageC) ∧
    (∀ d ∈ [true, false],
      let s := discardable d (.answerFetch .admission) .fetch
        (withPort (seated .challenging Account.cold) 11 { Port.cleared with fetchCount := 3 })
      (s.bus 2).current = some { running (.answerFetch .admission) .fetch with discarded := d } ∧
        (BusOp.answerFetch .admission).kind = .answerFetch ∧ (s.port 11).fetchCount < 4 ∧
        (List.replicate 16 (0 : Byte)).length = 16 ∧ (s.context 11).expected = .absent) := by
  decide +kernel

/-- Bay 11 with its exchange open, a number of communication failures, slot 3 and the expected answer as given. -/
def exchanging (k : ChallengeKind) (n : Nat) (x : Slot) (e : Expected) (op : BusOp) (p : Phase) : State :=
  busy op p (withContext
    (withBayRec { ready with digest := { ready.digest with slots := ready.digest.slots.set 3 x } } 11
      { bayIn (if k = .admission then .challenging else .admitted) with commFailures := n }) 11
    { Context.closed with kind := some k, slot := some 3, expected := e })

theorem test_witness_failed_exchange :
    (∀ k ∈ [ChallengeKind.admission, .rechallenge], ∀ n ∈ [1, 2], ∀ x ∈ [slotA, { slotA with state := .revoked }],
      ∀ e ∈ [Expected.present 5, .withheld], ∀ op ∈ [(BusOp.nonceSend k 7, Phase.acknowledgement), (.answerFetch k, .fetch)],
      let s := exchanging k n x e op.1 op.2
      (s.bus 2).current = some (running op.1 op.2) ∧ busOf 11 = 2 ∧ (op.1.kind = .nonceSend ∨ op.1.kind = .answerFetch) ∧
        (s.context 11).kind = some k ∧ (s.context 11).slot = some 3 ∧ (s.slot 3).state = x.state ∧
        (s.context 11).expected = e ∧ (s.bay 11).commFailures = n) ∧
    ∀ (s : State) (k : ChallengeKind),
      transactionFails s (.tokenReplyTimeout 2) 2 (running (.nonceSend k 7) .acknowledgement) .noResponse ∧
      transactionFails s (.tokenReplyTimeout 2) 2 (running (.answerFetch k) .fetch) .noResponse :=
  ⟨by decide +kernel, fun s _ => ⟨fails_in_time s false _ _ nofun, fails_in_time s false _ _ nofun⟩⟩

/-- A job of bay 3. -/
def jobA : Job := { bay := 3, slot := 3, nonce := 7, serial := serialA, identityPage := identityBytes, calibrationPage := calibrationBytes }

theorem test_witness_EngineDoneGivesTheExpectedAnswer :
    ∀ d ∈ [true, false], ∀ q ∈ [[], [jobA], [{ jobA with slot := 0 }]],
      let s := computing { bay := 11, answer := 5, discarded := d } { ready with digest := { ready.digest with queue := q } }
      s.digest.computing = some { bay := 11, answer := 5, discarded := d } ∧ s.digest.queue = q ∧
        (s.context 11).tokenAnswer = none ∧ (s.context 3).tokenAnswer = none ∧ (s.slot 3).state = .enabled ∧
        (s.slot 3).secret = some 9 ∧ (s.slot 0).state ≠ .enabled := by decide +kernel

theorem test_witness_AdvanceRunsItsPhases :
    (∀ p ∈ [Phase.arm, .load, .burn, .confirm], ∀ n ∈ [1, 2],
      let s := busy (.advance 15 1203) p (seated .admitted { accountB .advance with failures := n })
      (s.bus 2).current = some (running (.advance 15 1203) p) ∧ (running (.advance 15 1203) p).request.op.kind = .advance ∧
        (running (.advance 15 1203) p).phase = p ∧ busOf 11 = 2 ∧ (s.account 11).live = true ∧
        (s.account 11).commitState = .advance ∧ (s.account 11).failures = n) ∧
    ∀ s, transactionFails s (.tokenReplyTimeout 2) 2 (running (.advance 15 1203) .arm) .noResponse ∧
      transactionFails s (.tokenReplyTimeout 2) 2 (running (.advance 15 1203) .load) .noResponse ∧
      transactionFails s (.tokenReplyTimeout 2) 2 (running (.advance 15 1203) .confirm) .noResponse :=
  ⟨by decide +kernel, fun s => ⟨fails_in_time s false _ _ nofun, fails_in_time s false _ _ nofun, fails_in_time s false _ _ nofun⟩⟩

/-- Bay 11 in a state with an account and a CONFIRM of target 1203 running. -/
def confirming (t : BayState) (a : Account) : State := busy (.advance 15 1203) .confirm (known (seated t a))

/-- A commit of all that is pending, of a cartridge of capacity `n`. -/
def lastCommit (n : Nat) : Account := { accountB .advance with pending := 3, capacity := n }

/-- A release drain's last commit, with residue `r`. -/
def drained (r : Nat) : Account :=
  { lastCommit 5000 with residue := r, drain := { flush := true, release := true, save := false } }

theorem test_witness_ConfirmEndsTheCommit :
    (∀ s ∈ [confirming .admitted (accountB .advance), asking .flush (.flush 11) (queued 7 (confirming .admitted (lastCommit 1203))),
        confirming .releasing (drained 49999999999999), confirming .releasing (drained 50000000000000)],
      (s.bus 2).current = some (running (.advance 15 1203) .confirm) ∧ (s.account 11).live = true ∧
        (s.account 11).commitState = .advance ∧ (s.account 11).target = 1203 ∧ (s.account 11).inFlight ≤ (s.account 11).pending) ∧
    (1203 < 65536 ∧ 65535 ≠ 1203) ∧
    (let s := confirming .admitted (accountB .advance)
     (s.account 11).target ≠ (s.account 11).capacity ∧ (s.account 11).inFlight < (s.account 11).pending ∧
      s.serialRead 11 = some serialA) ∧
    (let s := asking .flush (.flush 11) (queued 7 (confirming .admitted (lastCommit 1203)))
     (s.account 11).target = (s.account 11).capacity ∧ (s.account 11).inFlight = (s.account 11).pending ∧
      (s.account 11).drain.release = false ∧ tagsUnique s ∧ (s.dispatcher.queue.filter fun q => q.wait = .flush 11).length = 1) ∧
    (∀ r ∈ [49999999999999, 50000000000000],
      let s := confirming .releasing (drained r)
      (s.account 11).inFlight = (s.account 11).pending ∧ (s.account 11).drain.release = true ∧ (s.bay 11).state = .releasing ∧
        (s.account 11).metering = .metered ∧ (s.account 11).residue = r ∧ (s.account 11).target < (s.account 11).capacity) ∧
    (let s := queued 6 (confirming .releasing (drained 49999999999999))
     (waitingOn (asking .release (.release 11) s) 11).map (·.wait) = [.release 11] ∧
      (∀ q ∈ [asking .release (.release 11) (asking .flush (.flush 11) s), asking .flush (.flush 11) (asking .release (.release 11) s)],
        tagsUnique q ∧ (waitingOn q 11).length = 2)) := by
  unfold tagsUnique; decide +kernel

theorem test_witness_MarkReplyEndsTheOrder :
    (∀ n ∈ [2, 3],
      let s := { busy (.mark .spent) .reply (known (seated .admitted accountA)) with
        orders := State.reset.orders.set 11 [{ mark := .refill, attempts := 0 }, { mark := .spent, attempts := n }] }
      (s.bus 2).current = some (running (.mark .spent) .reply) ∧ s.serialRead 11 = some serialA ∧
        (running (.mark .spent) .reply).discarded = false ∧
        s.markOrders 11 = ([⟨.refill, 0⟩] : List MarkOrder) ++ ⟨.spent, n⟩ :: ([] : List MarkOrder)) ∧
    ∀ s, transactionFails s (.tokenReplyTimeout 2) 2 (running (.mark .spent) .reply) .noResponse :=
  ⟨by decide +kernel, fun s => fails_in_time s false _ _ nofun⟩

theorem test_witness_CheckReadResolvesTheDoubt :
    (∀ n ∈ [1, 2],
      let s := busy (.checkRead 15) .reply (seated .admitted { accountB .check with failures := n })
      (s.bus 2).current = some (running (.checkRead 15) .reply) ∧ busOf 11 = 2 ∧ (s.account 11).live = true ∧
        (s.account 11).commitState = .check ∧ (s.account 11).failures = n ∧ (s.account 11).committed = 1200 ∧
        (s.account 11).target = 1203 ∧ (s.account 11).capacity = 5000 ∧ (s.account 11).inFlight < (s.account 11).pending) ∧
    ∀ s, transactionFails s (.tokenReplyTimeout 2) 2 (running (.checkRead 15) .reply) .noResponse :=
  ⟨by decide +kernel, fun s => fails_in_time s false _ _ nofun⟩

/-! ### Witnesses: the key store and the supply -/

/-- A store write of a kind running on slot 2. -/
def writing (w : SlotWriteKind) : State :=
  { queued 2 ready with digest := { ready.digest with writing := some { request := RequestKind.slotLoad.code, slot := 2, kind := w } } }

/-- A part in STARTING whose slot table is not read, its start-up work complete or not, and a cartridge in bay 11. -/
def awaiting (completed : Bool) : State :=
  { State.reset with
    journal := { State.reset.journal with startupDone := completed }
    presence := State.reset.presence.set 11 true }

theorem test_witness_KeyStoreEventsSetTheSlots :
    (∀ w ∈ [SlotWriteKind.load 8 6, .revoke],
      let s := asking .slotLoad .slotWriting (writing w)
      s.digest.writing = some { request := RequestKind.slotLoad.code, slot := 2, kind := w } ∧
      (∀ e ∈ s.dispatcher.queue, e.wait ≠ .slotQueued) ∧ tagsUnique s ∧
      ∃ e ∈ s.dispatcher.queue, e.tag = RequestKind.slotLoad.code) ∧
    (∀ completed : Bool, let s := asking .ident .slotRead (awaiting completed)
      s.digest.slotsRead = false ∧ s.journal.startupDone = completed ∧ s.supply.state = .starting ∧ s.supply.warn = false ∧
        s.supply.crit = false ∧ s.presence[(11 : Bay)] = true ∧ (s.bay 11).state = .vacant ∧ tagsUnique s) := by
  unfold tagsUnique; decide +kernel

/-- The payload of a SLOT-LOAD. -/
def loadPayload (k : SlotNo) (issuer : BitVec 32) : List Byte := slotLoadBytes k issuer 3

/-- A slot request that waits, with tag 50. -/
def nextRequest (k : RequestKind) (p : List Byte) : QueueEntry := { kind := k, tag := 50, level := 0, payload := p, wait := .slotQueued }

/-- A store write of a kind running on slot 2 for a SLOT-LOAD's entry, and a slot request waiting behind it. -/
def behind (w : SlotWriteKind) (e : QueueEntry) : State :=
  let s := asking .slotLoad .slotWriting (writing w)
  { s with dispatcher := { s.dispatcher with queue := s.dispatcher.queue ++ [e] } }

/-- R49, R179: a slot request waits behind a store write, its slot EMPTY, ENABLED or REVOKED once the write has ended, its tag borne
by another slot or not, or its slot number at 4. -/
theorem test_witness_next_slot_request :
    (∀ p ∈ [(RequestKind.slotLoad, loadPayload 0 9), (.slotLoad, loadPayload 0 7), (.slotLoad, loadPayload 2 9), (.slotRevoke, [3]),
        (.slotRevoke, [2]), (.slotLoad, 4 :: List.replicate 36 0), (.slotRevoke, [4])],
      ∀ w ∈ [SlotWriteKind.load 8 6, .revoke],
      let s := behind w (nextRequest p.1 p.2)
      s.digest.writing = some { request := RequestKind.slotLoad.code, slot := 2, kind := w } ∧ tagsUnique s ∧
        (∃ e ∈ s.dispatcher.queue, e.tag = RequestKind.slotLoad.code) ∧ (nextRequest p.1 p.2).tag ≠ RequestKind.slotLoad.code ∧
        (s.dispatcher.queue.filter fun e => e.wait = .slotQueued) = [nextRequest p.1 p.2]) ∧
    (let after := tableAfter (writing (.load 8 6)) { request := RequestKind.slotLoad.code, slot := 2, kind := .load 8 6 }
     (after true)[(0 : SlotNo)].state = .empty ∧ (after true)[(2 : SlotNo)].state = .enabled ∧
      (after false)[(2 : SlotNo)].state = .revoked ∧ (after true)[(3 : SlotNo)].state = .enabled ∧
      slotTag 3 (after true)[(3 : SlotNo)] = 7 ∧ ¬∃ j : SlotNo, j ≠ 0 ∧ (after true)[j].state ≠ .empty ∧ slotTag j (after true)[j] = 9) := by
  unfold tagsUnique; decide +kernel

theorem test_witness_SlotRequestsBeginTheStoreWrite :
    (admits (queued 7 ready) .slotLoad 8 0 (loadPayload 2 8) ∧ admits (queued 7 ready) .slotLoad 8 0 (loadPayload 3 8) ∧
      admits (queued 7 ready) .slotLoad 8 0 (loadPayload 2 7)) ∧
    ((queued 7 ready).digest.writing = none ∧ (∀ e ∈ (queued 7 ready).dispatcher.queue, e.wait ≠ .slotQueued) ∧
      ((queued 7 ready).slot 2).state = .empty ∧
      (¬∃ j, j ≠ 2 ∧ ((queued 7 ready).slot j).state ≠ .empty ∧ slotTag j ((queued 7 ready).slot j) = 8) ∧
      ((queued 7 ready).slot 3).state ≠ .empty ∧
      ∃ j, j ≠ 2 ∧ ((queued 7 ready).slot j).state ≠ .empty ∧ slotTag j ((queued 7 ready).slot j) = 7) ∧
    (∀ t ∈ [BayState.admitted, .releasing, .quarantined], ∀ r ∈ [Rechallenge.idle, .running],
      let s := queued 7 (withBayRec ready 11 { bayIn t with rechallenge := r })
      (s.slot 3).state = .enabled ∧ (s.bay 11).slot = some 3 ∧ (t = .quarantined ∨ (s.bay 11).drawable = true) ∧
        takes s .slotRevoke 8 0 [3] = true) ∧
    (((queued 7 ready).slot 0).state = .empty ∧ takes (queued 7 ready) .slotRevoke 8 0 [0] = true) ∧
    (let s := { queued 7 ready with digest := { ready.digest with slots := ready.digest.slots.set 3 { slotA with state := .revoked } } }
     (s.slot 3).state = .revoked ∧ s.digest.writing = none ∧ takes s .slotRevoke 8 0 [3] = true) ∧
    (∀ p ∈ [(RequestKind.slotLoad, 4 :: List.replicate 36 0), (.slotRevoke, [4])], takes (queued 7 ready) p.1 8 0 p.2 = true) ∧
    (∀ p ∈ [(RequestKind.slotLoad, loadPayload 0 9), (.slotRevoke, [0])],
      (writing .revoke).digest.writing.isSome = true ∧ takes (writing .revoke) p.1 8 0 p.2 = true) :=
  ⟨⟨admits_of_takes (by decide +kernel), admits_of_takes (by decide +kernel), admits_of_takes (by decide +kernel)⟩,
    by decide +kernel, by decide +kernel⟩

/-- A part in a supply state with the lines and the deadline as given. -/
def supplied (u : SupplyState) (warn crit : Bool) (d : Option Nat) : State :=
  { seated .admitted accountA with supply := { state := u, deadline := d, warn := warn, crit := crit, marginInUse := 20 } }

theorem test_witness_SupplyLossEntersSave :
    ((supplied .normal false false none).supply.state = .normal ∧ (supplied .normal false false none).supply.warn = false) ∧
      (supplied .save false true (some 20)).supply.state ≠ .normal ∧
      ((supplied .save true false (some 120)).supply.state = .save ∧
        (supplied .save true false (some 120)).supply.deadline = some 120) := by decide +kernel

theorem test_witness_SupplyReturnEndsSave :
    (supplied .save true false (some 0)).supply.state = .save ∧
      (∀ u ∈ [SupplyState.save, .expired], (supplied u true true none).supply.state = u ∧
        (supplied u true true none).supply.crit = true ∧ (supplied u true true none).supply.warn = true ∧
        (supplied u true false none).supply.crit = false ∧ (supplied u false true none).supply.warn = false) ∧
      ((supplied .normal true true none).supply.state = .normal ∧ (supplied .starting true false none).supply.state = .starting ∧
        (supplied .starting true false none).journal.startupDone = true ∧
        (supplied .starting true false none).digest.slotsRead = true) := by decide +kernel

/-! ### Witnesses: the journal -/

/-- A journal with `n` ERASED sectors from sector 1 up, the given sector 0, writer, room and append set. -/
def journaled (n : Nat) (x : SectorRec) (w : Writer) (room : Nat) (set : List Serial) : State :=
  { known ready with journal := { State.reset.journal with
      sectors := Vector.ofFn fun i : Sector => if i.val = 0 then x else
        { state := if i.val ≤ n then .erased else .full, sequence := none, torn := none, erasing := none }
      startupDone := true, writer := w, room := room, appendSet := set } }

/-- R141, R150, R151: a return to NORMAL with no sector ERASED or one, an erase held or compaction idle. -/
theorem test_witness_journal_at_the_return :
    ∀ n ∈ [0, 1], ∀ c ∈ [Compaction.eraseHeld 7, .idle],
      let j := (journaled n { state := .full, sequence := some 1, torn := none, erasing := none } .idle 0 [7]).journal
      let s : State := { supplied .save true false none with journal := { j with compaction := c } }
      s.supply.state = .save ∧ s.supply.crit = false ∧ s.journal.erasedCount = n ∧ s.journal.mode = .normal ∧
        s.journal.compaction = c := by decide +kernel

/-- An ACTIVE sector. -/
def activeSector : SectorRec := { state := .active, sequence := some 4294967295, torn := none, erasing := none }

/-- A FULL sector. -/
def fullSector : SectorRec := { state := .full, sequence := some 1, torn := none, erasing := none }

/-- A compaction copy being written, its serial in the append set. -/
def copied (stale : Bool) : State :=
  let s := journaled 3 activeSector (.record 1 .compactionCopy (.evict serialA)) 12 [serialA, 5]
  { s with journal := { s.journal with compaction := .copying 3 [serialA, 6], copyStale := stale } }

/-- R149: a written copy takes its serial out of the append set, unless an event has put it there since the write began. -/
theorem test_written_copy_and_the_append_set :
    ((copied false).recordWriteEnd none).journal.appendSet = [5] ∧
      ((copied true).recordWriteEnd none).journal.appendSet = [serialA, 5] := by decide +kernel

/-- R149: a copy whose subject has lost its entry while its header was written is skipped, and the EVICT that the set holds stays. -/
theorem test_evicted_copy_is_skipped :
    let s := journaled 3 activeSector (.header 0 .compactionCopy (.evict serialA)) 4080 [serialA]
    let t := ({ s with refill := { table := [], sequence := 0 } }).headerWriteEnd none
    t.journal.writer = .idle ∧ t.journal.appendSet = [serialA] ∧
      (s.headerWriteEnd none).journal.writer = .record 0 .compactionCopy (s.recordOf serialA) := by decide +kernel

/-- With compaction as given. -/
def compacting (c : Compaction) (s : State) : State := { s with journal := { s.journal with compaction := c } }

/-- In a supply state. -/
def supplyIn (u : SupplyState) (s : State) : State := { s with supply := { s.supply with state := u } }

theorem test_witness_WriterTakesTheHeadOfTheSet :
    (∀ u ∈ [SupplyState.normal, .save, .expired], ∀ n ∈ [0, 1, 2], ∀ x ∈ [activeSector, fullSector], ∀ room ∈ [19, 20],
      let s := supplyIn u (journaled n x .idle room [serialA])
      s.journal.writer = .idle ∧ s.journal.mode = .normal ∧ s.journal.appendSet = [serialA] ∧ s.supply.state = u ∧
        s.journal.compaction = .idle ∧ s.journal.erasedCount = n ∧ (s.recordOf serialA).size = 20 ∧
        s.journal.lowestErased = (if n = 0 then none else some 1) ∧
        s.journal.active = if x = activeSector then some 0 else none) ∧
    (∀ u ∈ [SupplyState.normal, .starting], ∀ n ∈ [0, 1, 2], ∀ x ∈ [activeSector, fullSector], ∀ room ∈ [19, 20],
      let s := compacting (.copying 7 ([5] ++ serialA :: [6])) (supplyIn u (journaled n x .idle room [5]))
      s.journal.writer = .idle ∧ s.journal.mode = .normal ∧ s.journal.compaction = .copying 7 ([5] ++ serialA :: [6]) ∧
        s.supply.state = u ∧ s.entry 5 = none ∧ (s.entry serialA).isSome = true ∧ (s.recordOf serialA).size = 20 ∧
        s.journal.erasedCount = n) ∧
    (let s := compacting (.copying 7 [5, 6]) (journaled 1 fullSector .idle 0 [])
     s.entry 5 = none ∧ s.entry 6 = none ∧ s.journal.appendSet = [] ∧ s.supply.state = .normal) ∧
    ∀ c : Compaction, c = .idle → ∀ y ys, c ≠ .copying y ys := by
  refine ⟨?_, ?_, ?_, fun c h => not_copying h⟩ <;> decide +kernel

theorem test_witness_JournalWritesLandInFlash :
    (∀ k ∈ [RecordSource.appendSet, .compactionCopy], ∀ u ∈ [SupplyState.normal, .starting, .save, .expired],
      ∀ c ∈ [Compaction.idle, .copying 3 [1], .copying 3 [1, 6]],
      let s := compacting c (supplyIn u (journaled 3 activeSector (.record 0 k (.evict 1)) 12 [1]))
      s.journal.writer = .record 0 k (.evict 1) ∧ s.journal.flash.wf = true ∧ s.journal.compaction = c ∧ s.supply.state = u) ∧
    (∀ k ∈ [RecordSource.appendSet, .compactionCopy], ∀ n ∈ [2, 3],
      let s := journaled n activeSector (.header 0 k (.evict 1)) 4080 []
      s.journal.writer = .header 0 k (.evict 1) ∧ s.supply.state ≠ .starting ∧ s.journal.erasedCount = n ∧
        (s.sector 0).sequence = some 4294967295 ∧ s.journal.flash.wf = true) := by decide +kernel

theorem test_witness_FailedWriteFillsTheSector :
    ∀ k ∈ [RecordSource.appendSet, .compactionCopy], ∀ f ∈ [0, 1], ∀ w ∈ [Writer.record 0 k (.evict 1), .header 0 k (.evict 1)],
      let s := journaled 2 activeSector w 12 []
      let s := { s with journal := { s.journal with failures := f } }
      s.journal.mode = .normal ∧ s.journal.failures = f ∧ s.journal.writer = w ∧ s.supply.state ≠ .starting ∧
        s.journal.erasedCount = 2 := by decide +kernel

/-- A journal with sector 0 being erased, `e` sectors ERASED and `f` FULL after it, of rising age, the rest FAILED. -/
def erasing (e f : Nat) (c : Compaction) : State :=
  let s := journaled 0 fullSector .idle 0 []
  { s with journal := { s.journal with
    compaction := c
    sectors := Vector.ofFn fun i : Sector =>
      { state := if i.val = 0 then .full else if i.val ≤ e then .erased else if i.val ≤ e + f then .full else .failed
        sequence := some i.val, torn := none, erasing := if i.val = 0 then some 0xFFFFFFFF else none } } }

theorem test_witness_EraseEndsSetTheSector :
    ∀ p ∈ [(1, 6), (2, 5), (1, 0), (1, 2), (1, 1)], ∀ c ∈ [Compaction.erasing 0, .idle, .copying 3 [1]],
      let s := erasing p.1 p.2 c
      (s.sector 0).erasing.isSome = true ∧ s.supply.state ≠ .starting ∧ s.journal.mode = .normal ∧
        s.journal.compaction = c ∧ s.journal.erasedCount = p.1 ∧
        (s.journal.modSector 0 fun r => { r with state := .failed }).usableCount = p.1 + p.2 := by decide +kernel

/-- A journal of one ERASED sector, sector 0 with sequence number 0 and a record of the serial in flash, the others newer. -/
def filed (room : Nat) : State :=
  let s := erasing 1 6 .idle
  { s with journal := { s.journal with
    room := room
    sectors := s.journal.sectors.set 0 { fullSector with sequence := some 0 }
    newest := [(serialA, 0)]
    flash := Memory.writeBytes [] 16 (s.recordOf serialA).bytes } }

/-- R149: two ERASED sectors or fewer, a FULL sector with a subject, another without: each choice of compaction. -/
theorem test_witness_compaction :
    (filed 19).journal.compaction = .idle ∧ (filed 19).supply.state = .normal ∧ (filed 19).journal.erasedCount = 1 ∧
      (filed 19).copiesNeeded 0 = [serialA] ∧ (filed 19).copiesNeeded 2 = [] ∧ ((filed 19).recordOf serialA).size = 20 ∧
      ((filed 20).checkCompaction).journal.compaction = .copying 0 [serialA] ∧
      ((filed 19).checkCompaction).journal.compaction = .erasing 2 := by decide +kernel

theorem test_witness_RecordsAndHeadersReadBack :
    fullRecord.highWater < 65536 ∧ fullRecord.lastSeen < 2 ^ 32 ∧
      (∀ d, fullRecord.debt = some d → d.1 < 65536 ∧ d.2 < 100000000000000) ∧
      (∀ d, fullRecord.doubt = some d → d.base < 65536 ∧ d.amount < 65536) :=
  ⟨by decide, by decide, some_of rfl (by decide), some_of rfl (by decide)⟩

/-! ### Witnesses: the link and arrivals -/

/-- A part whose receiver is in a state. -/
def receiving (r : Receiver) : State := { ready with link := { ready.link with receiver := r } }

theorem test_witness_ReceiverTakesEachByteAndDropsBadFrames :
    (receiving .hunt).link.receiver = .hunt ∧ (receiving .length).link.receiver = .length ∧
      (receiving (.body 203 [])).link.receiver = .body 203 [] ∧ (receiving (.check digits [])).link.receiver = .check digits [] ∧
      ((receiving (.check digits [0x29])).link.receiver = .check digits [0x29] ∧ crc16 digits ≠ (0x29#8 ++ 0xB2#8)) ∧
      (let body : List Byte := [RequestKind.status.code, 1, 0]
       ∃ h b : Byte, (receiving (.check body [h])).link.receiver = .check body [h] ∧ crc16 body = h ++ b) ∧
      crc16 digits ≠ 0x29B2 := by
  refine ⟨rfl, rfl, rfl, rfl, ⟨rfl, by decide +kernel⟩, ⟨(crc16 [RequestKind.status.code, 1, 0]).extractLsb' 8 8,
    (crc16 [RequestKind.status.code, 1, 0]).extractLsb' 0 8, rfl, by decide +kernel⟩, by decide +kernel⟩

theorem test_witness_ReceivedFrameIsDelivered :
    (receiving .hunt).link.receiver = .hunt ∧ (List.replicate 200 (0 : Byte)).length ≤ 200 := by decide +kernel

/-- A reply of a SET-LINK. -/
def linkReply : Reply := { kind := 0xA5, tag := 1, result := .ok, payload := [], queued := true, newRate := some 57600 }

theorem test_witness_ReplySentFreesItsPlace :
    ({ queued 1 ready with link := { ready.link with sending := some (linkReply, 115200) } } : State).link.sending =
      some (linkReply, 115200) := rfl

theorem test_witness_ArrivalsAreJudgedInOrder :
    8 ≤ (queued 8 ready).dispatcher.queue.length ∧
    ((queued 7 ready).dispatcher.queue.length < 8 ∧ (∃ e ∈ (queued 7 ready).dispatcher.queue, e.tag = 7) ∧
      (∀ e ∈ (queued 7 ready).dispatcher.queue, e.tag ≠ 8)) ∧
    (RequestKind.slotLoad.level < effectiveLevel (queued 7 ready).dispatcher 1 ∧
      effectiveLevel (queued 7 ready).dispatcher 0 = RequestKind.slotLoad.level) ∧
    ((queued 7 State.reset).supply.state = .starting ∧ RequestKind.usage ≠ .ident ∧ RequestKind.usage ≠ .status ∧
      effectiveLevel (queued 7 State.reset).dispatcher 0 ≤ RequestKind.usage.level) ∧
    ((queued 7 ready).supply.state ≠ .starting ∧ RequestKind.bayQuery.fixedLength = some 1 ∧ ([] : List Byte).length ≠ 1) ∧
    (State.reset.dispatcher.strapFloor = strapFloorOf false false ∧ State.reset.dispatcher.lockFloor = 0 ∧
      ready.dispatcher.strapFloor = strapFloorOf true false ∧ ready.dispatcher.lockFloor = 0) := by decide +kernel

/-- Every kind in one list. -/
theorem kind_code_known (k : RequestKind) : k.code ≠ 0x32 := by cases k <;> decide

theorem test_witness_UnknownKindsAndBaysAreRefused :
    ((∀ k : RequestKind, k.code ≠ 0x32) ∧ (queued 7 ready).dispatcher.queue.length < 8 ∧
      ∀ e ∈ (queued 7 ready).dispatcher.queue, e.tag ≠ 8) ∧
    (∀ k ∈ [RequestKind.bayQuery, .flush, .release, .bayReset, .rechallenge], admits (queued 7 ready) k 8 0 [12]) ∧
    admits (queued 7 ready) .setClass 8 0 [12, 0, 0] ∧ 11 < (12 : Byte).toNat ∧ (12 : Byte) ≠ 0xFF ∧
    ∀ k ∈ [RequestKind.faults, .hold], admits (queued 7 ready) k 8 0 [2] := by
  refine ⟨⟨kind_code_known, by decide +kernel⟩, fun k hk => admits_of_takes ?_, admits_of_takes ?_, ?_, ?_,
    fun k hk => admits_of_takes ?_⟩
  case refine_5 => revert k; decide +kernel
  · revert k; decide +kernel
  all_goals decide +kernel

/-- An element of each list that is good. -/
def goodItem : RequestKind → List Byte
  | .usage => List.replicate 19 0
  | .levelSense => [11, 2]
  | .setBands => [0, 0, 0, 0, 2]
  | _ => [21, 0x0F, 0xFF]

/-- R66, R113, R87, R161: each bad element, after a good one where the list may be longer, at the bounds of its fields. -/
theorem test_witness_bad_lists :
    (∀ x ∈ [(RequestKind.usage, 19, 1, 8), (.levelSense, 2, 1, 12), (.setBands, 5, 0, 4), (.ackNotices, 3, 1, 21)],
      listShape x.1 = some x.2 ∧ (goodItem x.1).length = x.2.1 ∧ takes (queued 7 ready) x.1 8 0 [] = true ∧
        takes (queued 7 ready) x.1 8 0 [BitVec.ofNat 8 (x.2.2.2 + 1)] = true ∧ takes (queued 7 ready) x.1 8 0 [1] = true) ∧
    badItem .usage (12 :: List.replicate 18 0) ∧ badItem .levelSense [12, 0] ∧ badItem .levelSense [11, 3] ∧
      badItem .setBands (beBytes 2 0 ++ beBytes 2 0 ++ [3]) ∧ badItem .setBands (beBytes 2 1 ++ beBytes 2 0 ++ [0]) ∧
      badItem .ackNotices (0 :: beBytes 2 0) ∧ badItem .ackNotices (22 :: beBytes 2 0) ∧ badItem .ackNotices (1 :: beBytes 2 4096) ∧
    (∀ x ∈ [(RequestKind.usage, 12 :: List.replicate 18 0), (.levelSense, [11, 3]), (.setBands, [0, 1, 0, 0, 0]), (.ackNotices, [1, 16, 0])],
      takes (queued 7 ready) x.1 8 0 (2 :: (goodItem x.1 ++ x.2 ++ [])) = true ∧ (goodItem x.1).length = x.2.length) :=
  ⟨by decide +kernel, ⟨12, _, rfl, by decide⟩, ⟨12, 0, rfl, by decide⟩, ⟨11, 3, rfl, by decide⟩, ⟨0, 0, 3, rfl, by decide⟩,
    ⟨1, 0, 0, rfl, by decide⟩, ⟨0, 0, rfl, by decide⟩, ⟨22, 0, rfl, by decide⟩, ⟨1, 4096, rfl, by decide⟩, by decide +kernel⟩

/-! ### Witnesses: the requests -/

theorem test_witness_QueriesAnswerAndAcknowledgementsClear :
    let s := queued 7 (known (seated .admitted accountA))
    (admits (queued 7 State.reset) .ident 8 0 [] ∧ (queued 7 State.reset).digest.slotsRead = false) ∧
    (admits s .ident 8 0 [] ∧ s.digest.slotsRead = true) ∧ admits s .status 8 0 [] ∧ admits s .bayQuery 8 0 [11] ∧
      admits s .historyQuery 8 0 (beBytes 8 serialA.toNat) ∧ admits s .notices 8 0 [] ∧ admits s .faults 8 0 [0] ∧
      admits s .faults 8 0 [1] ∧ ∀ k ∈ [NoticeKind.clone, .historyEvicted],
        admits s .ackNotices 8 0 ([1, BitVec.ofNat 8 k.code] ++ beBytes 2 (2048 : BitVec 12).toNat) := by
  refine ⟨⟨admits_of_takes ?_, ?_⟩, ⟨admits_of_takes ?_, ?_⟩, admits_of_takes ?_, admits_of_takes ?_, admits_of_takes ?_,
    admits_of_takes ?_, admits_of_takes ?_, admits_of_takes ?_, fun k hk => admits_of_takes ?_⟩
  case refine_11 => revert k; decide +kernel
  all_goals decide +kernel

/-- The payload of a USAGE of `n` entries of bay 11 at their largest. -/
def usagePayload (n : Nat) : List Byte :=
  BitVec.ofNat 8 n :: (List.replicate n
    (usageEntryBytes 11 4294967295 4294967295 4294967295 4294967295 255 60)).flatten

theorem test_largest_usage_entry :
    usageVolume { vS := 10000, vM := 10000, vL := 10000, k := 100, vp := 65535 } 4294967295 4294967295 4294967295 4294967295
      255 60 + 99999999999999 = 2078395726599999999 := by decide

theorem test_witness_UsageEntryIsAccounted :
    (∀ m ∈ [Metering.metered, .unmetered], ∀ t ∈ [BayState.admitted, .quarantined],
      admits (queued 7 (seated t { accountA with metering := m })) .usage 8 0 (usagePayload 1)) ∧
    (∀ m ∈ [Metering.metered, .unmetered],
      let s := queued 7 (seated .admitted { accountA with metering := m })
      (s.bay 11).drawable = true ∧ (s.account 11).calibration = some copy411 ∧ (s.account 11).metering = m ∧
        (s.account 11).committed + (s.account 11).pending ≤ (s.account 11).capacity) ∧
    ((queued 7 (seated .quarantined accountA)).bay 11).drawable = false ∧
    (∀ c ∈ [4996, 0], ∀ free : Bool,
      let bay := seated .admitted { accountA with committed := c, pending := if c = 0 then 0 else 4 }
      let s := queued 7 (if free then freed bay else resting (rivalled bay))
      (admits s .usage 8 0 (usagePayload 1) ∧ admits s .usage 8 0 (usagePayload 2)) ∧
      (s.bay 11).drawable = true ∧ (s.account 11).live = true ∧
        (s.account 11).metering = .metered ∧ (s.account 11).calibration = some copy411 ∧ (s.account 11).commitState = .idle ∧
        (s.port 11).posted = none ∧ (s.bus (busOf 11)).current = none ∧
        ((s.bus (busOf 11)).free = false ∨ s.supply.state = .expired ∨
          ∀ d, d ≠ 11 → busOf d = busOf 11 → (s.port d).posted = none) ∧
        s.markOrders 11 = [] ∧ (s.bay 11).rechallenge ≠ .running ∧ (s.account 11).bands = [] ∧ s.settings.bands = [] ∧
        s.settings.hold = false ∧ (s.account 11).writeProtect = false ∧ s.settings.defaultMode ≠ .frozen ∧
        (s.account 11).mode ≠ .frozen ∧ (s.account 11).committed + (s.account 11).pending ≤ (s.account 11).capacity ∧
        s.settings.batch ≤ (s.account 11).pending +
          min (((s.account 11).residue + usageVolume copy411 4294967295 4294967295 4294967295 4294967295 255 60) / 100000000000000)
            ((s.account 11).capacity - (s.account 11).committed - (s.account 11).pending)) := by
  refine ⟨fun m hm t ht => admits_of_takes ?_, ?_, ?_, fun c hc free => ⟨⟨admits_of_takes ?_, admits_of_takes ?_⟩, ?_⟩⟩
  · revert m t; decide +kernel
  · decide +kernel
  · decide +kernel
  all_goals revert c free; decide +kernel

/-- R74, R108, R111: with 4 quanta of room left, an entry that meets the conditions of the three notices. -/
theorem test_witness_usage_notices :
    let s := queued 7 (seated .admitted { accountA with committed := 4992 })
    takes s .usage 8 0 (usagePayload 1) = true ∧ (∀ e ∈ s.dispatcher.queue, e.wait ≠ .flush 11) ∧
      (s.account 11).overdraw = 0 ∧ (s.account 11).live = true ∧ (s.account 11).metering = .metered ∧
      (s.account 11).lowNotified = false ∧ (s.bay 11).state = .admitted ∧ 0 < s.allowance 11 := by decide +kernel

/-- A used-up account one reading short of a confirmation. -/
def emptied : Account := { accountA with committed := 5000, pending := 0, senseCount := 2 }

/-- Bay 11 ADMITTED with that account, the tolerance as given, and a RECHALLENGE waiting on it. -/
def sensing (x : Tolerance) : State :=
  let s := asking .rechallenge (.rechallenge 11) (queued 6 (known (seated .admitted emptied)))
  { s with dispatcher := { s.dispatcher with settings := { s.settings with tolerance := x } } }

theorem test_witness_LevelSensePairsAreDisposed :
    (∀ a ∈ [{ emptied with senseCount := 1 }, accountA, emptied],
      ((seated .admitted a).account 11).live = true ∧ ((seated .admitted a).account 11).metering = .metered) ∧
    (let s := queued 7 (seated .admitted { emptied with senseCount := 1 })
     admits s .levelSense 8 0 [1, 11, 2] ∧ admits s .levelSense 8 0 [1, 11, 1] ∧ (s.bay 11).state = .admitted ∧
      (s.account 11).committed = (s.account 11).capacity ∧ (s.account 11).senseCount + 1 < s.settings.senseConfirm ∧
      0 < (s.account 11).senseCount) ∧
    (let s := queued 7 (seated .admitted { accountA with committed := 3745, pending := 0 })
     admits s .levelSense 8 0 [1, 11, 0] ∧ (s.bay 11).drawable = true ∧ (s.account 11).level = 251 ∧
      (s.account 11).committed ≠ (s.account 11).capacity) ∧
    (∀ x ∈ [Tolerance.accept, .refuse], admits (sensing x) .levelSense 8 0 [1, 11, 2] ∧ ((sensing x).bay 11).state = .admitted ∧
      (sensing x).account 11 = emptied ∧ emptied.committed = emptied.capacity ∧
      (sensing x).settings.senseConfirm = emptied.senseCount + 1 ∧ (sensing x).serialRead 11 = some serialA ∧
      (sensing x).settings.tolerance = x ∧ tagsUnique (sensing x) ∧
      ((sensing x).dispatcher.queue.filter fun q => q.wait = .rechallenge 11).length = 1) := by
  refine ⟨?_, ⟨admits_of_takes ?_, admits_of_takes ?_, ?_⟩, ⟨admits_of_takes ?_, ?_⟩, fun x hx => ⟨admits_of_takes ?_, ?_⟩⟩
  case refine_7 => revert x; decide +kernel
  case refine_8 => revert x; unfold tagsUnique; decide +kernel
  all_goals decide +kernel

theorem test_witness_FlushWaitsForPending :
    (∀ a ∈ [accountA, { accountA with pending := 0 }, { accountA with mode := .frozen }, { accountA with metering := .unmetered }],
      let s := queued 7 (seated .admitted a)
      admits s .flush 8 0 [11] ∧ admits s .flush 8 0 [0xFF] ∧ (s.bay 11).drawable = true ∧ s.account 11 = a ∧
        ∀ b : Bay, b ≠ 11 → (s.bay b).drawable = false) ∧
    (0 < accountA.pending ∧ accountA.mode ≠ .frozen ∧ accountA.metering = .metered) ∧
    (admits (queued 7 ready) .flush 8 0 [11] ∧ (ready.bay 11).drawable = false) ∧
    (admits (queued 7 ready) .flush 8 0 [0xFF] ∧ ∀ b : Bay, ((queued 7 ready).bay b).drawable = false) := by
  refine ⟨fun a ha => ⟨admits_of_takes ?_, admits_of_takes ?_, ?_⟩, ?_, ⟨admits_of_takes ?_, ?_⟩, admits_of_takes ?_, ?_⟩
  · revert a; decide +kernel
  · revert a; decide +kernel
  · revert a; decide +kernel
  all_goals decide +kernel

/-- Bay 11 ADMITTED with an account and its re-challenge as given, and a RECHALLENGE waiting on it. -/
def rechallenged (r : Rechallenge) (a : Account) : State :=
  asking .rechallenge (.rechallenge 11) (queued 6 (withBayRec (seated .admitted a) 11 { bayIn .admitted with rechallenge := r }))

theorem test_witness_ReleaseDrainsOrCompletes :
    (∀ t ∈ [BayState.admitted, .quarantined, .releasing, .rejected],
      admits (queued 7 (seated t accountA)) .release 8 0 [11] ∧ ((queued 7 (seated t accountA)).bay 11).state = t) ∧
    (∀ r ∈ [Rechallenge.idle, .waiting, .running], ∀ a ∈ [{ accountA with residue := 49999999999999 },
        { accountA with residue := 50000000000000, committed := 4995 }, { accountA with residue := 49999999999999, pending := 0 },
        { accountA with metering := .unmetered }],
      let s := rechallenged r a
      admits s .release 8 0 [11] ∧ (s.bay 11).state = .admitted ∧ (s.bay 11).rechallenge = r ∧ s.account 11 = a ∧ tagsUnique s ∧
        (waitingOn s 11).map (·.wait) = [.rechallenge 11] ∧
        (s.dispatcher.queue.filter fun q => q.wait = .rechallenge 11).length = 1 ∧
        waitingOn (queued 7 (seated .admitted a)) 11 = []) ∧
    (accountA.metering = .metered ∧ 0 < accountA.pending ∧ 4995 + accountA.pending < accountA.capacity) := by
  refine ⟨fun t ht => ⟨admits_of_takes ?_, ?_⟩, fun r hr a ha => ⟨admits_of_takes ?_, ?_⟩, ?_⟩
  · revert t; decide +kernel
  · revert t; decide +kernel
  · revert r a; decide +kernel
  · revert r a; unfold tagsUnique; decide +kernel
  · decide

theorem test_witness_BayResetAndRechallengeAreTaken :
    (∀ t ∈ [BayState.faulted, .rejected, .quarantined, .released, .admitted],
      admits (queued 7 (seated t accountA)) .bayReset 8 0 [11] ∧ admits (queued 7 (seated t accountA)) .rechallenge 8 0 [11] ∧
        (queued 7 (seated t accountA)).supply.state = .normal ∧ ((queued 7 (seated t accountA)).bay 11).state = t) ∧
    BayState.admitted.held = false ∧
    ∀ u ∈ [SupplyState.save, .expired], admits (queued 7 (supplied u true false none)) .bayReset 8 0 [11] ∧
      admits (queued 7 (supplied u true false none)) .rechallenge 8 0 [11] ∧ (supplied u true false none).supply.state = u := by
  refine ⟨fun t ht => ⟨admits_of_takes ?_, admits_of_takes ?_, ?_, ?_⟩, ?_, fun u hu => ⟨admits_of_takes ?_, admits_of_takes ?_, ?_⟩⟩
  · revert t; decide +kernel
  · revert t; decide +kernel
  · revert t; decide +kernel
  · revert t; decide +kernel
  · decide
  · revert u; decide +kernel
  · revert u; decide +kernel
  · revert u; decide +kernel

/-- A part with the settings that `f` makes of the defaults. -/
def configured (f : Settings → Settings) (s : State) : State :=
  { s with dispatcher := { s.dispatcher with settings := f s.settings } }

/-- Bay 11 QUARANTINED under REFUSE with no account, bay 0 in a state with the same cartridge's page. -/
def quarantine (t : BayState) : State :=
  configured (fun x => { x with tolerance := .refuse }) (withBayRec (known (seated .quarantined Account.cold)) 0 (bayIn t))

theorem test_witness_ConfigureClampsAndStores :
    (∀ p ∈ [(0x01, 0), (0x01, 0xFFFF), (0x06, 0), (0x06, 0xFFFF), (0x07, 0), (0x07, 0xFFFF), (0x08, 0), (0x08, 0xFFFF), (0x04, 0),
        (0x04, 1), (0x04, 0xFFFF), (0x05, 0), (0x05, 0xFFFF), (0x09, 0), (0x09, 1), (0x03, 0), (0x03, 1), (0, 0), (10, 0), (0x03, 2),
        (0x09, 2), (0x02, 3)],
      admits (queued 7 ready) .configure 8 0 (BitVec.ofNat 8 p.1 :: beBytes 2 (BitVec.ofNat 16 p.2).toNat)) ∧
    ((queued 7 ready).settings.interval ≠ 0 ∧ (0 : Nat) ≠ (queued 7 ready).settings.interval ∧
      max 10 (min 3600 1) ≠ (queued 7 ready).settings.interval) ∧
    ((queued 7 ready).settings.tolerance = .accept ∧ ∀ b : Bay, ((queued 7 ready).bay b).state ≠ .quarantined) ∧
    (let s := queued 7 (configured (fun x => { x with interval := 0 }) (seated .admitted accountA))
     admits s .configure 8 0 (4 :: beBytes 2 (10 : BitVec 16).toNat) ∧ s.settings.interval = 0 ∧ (s.bay 11).state = .admitted ∧
      (s.bay 11).rechallenge = .idle) ∧
    (∀ c ∈ [2500, 2495],
      let s := queued 7 (seated .admitted { accountA with committed := c, pending := 0 })
      admits s .configure 8 0 (5 :: beBytes 2 (500 : BitVec 16).toNat) ∧ 500 ≠ s.settings.lowThreshold ∧
        (s.bay 11).drawable = true ∧ (s.account 11).live = true ∧ (s.account 11).metering = .metered ∧
        (s.account 11).lowNotified = false ∧ (s.account 11).level = if c = 2500 then 500 else 501) ∧
    (∀ t ∈ [BayState.vacant, .admitted, .releasing],
      let s := queued 7 (quarantine t)
      admits s .configure 8 0 (3 :: beBytes 2 (0 : BitVec 16).toNat) ∧ s.settings.tolerance = .refuse ∧
        (s.bay 11).state = .quarantined ∧ (∀ d, (s.bay d).state = .quarantined → d = 11) ∧
        (s.bay 11).identityPage = some pageI ∧ (s.bay 11).calibrationPage = some pageC ∧
        (s.bay 11).usagePage = some (pageU 1200) ∧ s.entry pageI.serial = some historyA ∧ (s.account 11).live = false ∧
        (if t = .vacant then ∀ d, d ≠ 11 → ¬(s.bay d).drawable = true
          else (s.bay 0).drawable = true ∧ s.serialRead 0 = some pageI.serial)) := by
  refine ⟨fun p hp => admits_of_takes ?_, by decide +kernel, by decide +kernel, ⟨admits_of_takes ?_, ?_⟩,
    fun c hc => ⟨admits_of_takes ?_, ?_⟩, fun t ht => ⟨admits_of_takes ?_, ?_⟩⟩
  · revert p; decide +kernel
  · decide +kernel
  · decide +kernel
  · revert c; decide +kernel
  · revert c; decide +kernel
  · revert t; decide +kernel
  · revert t; decide +kernel

theorem test_witness_ModeSettingsRecomputeEveryMode :
    let s := queued 7 (seated .admitted accountA)
    (∀ n ∈ [0, 1, 2, 3, 4],
      let bands : List PrinterBand := List.replicate n { low := 65535, high := 65535, mode := .frozen }
      admits s .setBands 8 0 (BitVec.ofNat 8 bands.length ::
        bands.flatMap fun d => beBytes 2 d.low ++ beBytes 2 d.high ++ [BitVec.ofNat 8 d.mode.rank]) ∧
      bands.length ≤ 4 ∧ ∀ d ∈ bands, d.low ≤ d.high ∧ d.high < 65536) ∧
      (admits s .hold 8 0 [1] ∧ true ≠ s.settings.hold) ∧
      (admits s .configure 8 0 [2, 0, 1] ∧ Mode.through ≠ s.settings.defaultMode) ∧
      (s.account 11).live = true ∧ (s.account 0).live = false := by
  refine ⟨fun n hn => ⟨admits_of_takes ?_, ?_⟩, ⟨admits_of_takes ?_, ?_⟩, ⟨admits_of_takes ?_, ?_⟩, ?_⟩
  · revert n; decide +kernel
  · revert n; decide +kernel
  all_goals decide +kernel

theorem test_witness_SettingsRequestsSetTheirField :
    let s := queued 7 (seated .admitted accountA)
    (∀ b ∈ [(10 : Bay), 11], admits s .setClass 8 0 (BitVec.ofNat 8 b.val :: beBytes 2 (0x0102 : BitVec 16).toNat)) ∧
      (s.bay 10).state = .vacant ∧ (s.bay 11).state ≠ .vacant ∧
      (∀ l ∈ [7, 8], admits s .setMask 8 0 (BitVec.ofNat 8 l :: beBytes 3 (0 : BitVec 21).toNat)) ∧
      (∀ r ∈ [57600, 57599, 921600], admits s .setLink 8 0 (beBytes 4 (BitVec.ofNat 32 r).toNat)) ∧
      ∀ l ∈ [2, 3], admits s .lockLevel 8 0 [BitVec.ofNat 8 l] := by
  refine ⟨fun b hb => admits_of_takes ?_, ?_, ?_, fun l hl => admits_of_takes ?_, fun r hr => admits_of_takes ?_,
    fun l hl => admits_of_takes ?_⟩
  · revert b; decide +kernel
  · decide +kernel
  · decide +kernel
  · revert l; decide +kernel
  · revert r; decide +kernel
  · revert l; decide +kernel

/-! ### Witnesses: computed values -/

/-- The largest calibration copy. -/
def copyMax : CalibrationCopy := { vS := 10000, vM := 10000, vL := 10000, k := 100, vp := 65535 }

/-- The largest usage entry, at 60 °C. -/
def entryMax : UsageEntry :=
  { bay := 11, small := 4294967295, medium := 4294967295, large := 4294967295, spit := 4294967295, purges := 255, temperature := 60 }

theorem test_witness_RawVolumeIsExact :
    copyMax.vS ≤ 10000 ∧ copyMax.vM ≤ 10000 ∧ copyMax.vL ≤ 10000 ∧ entryMax.small ≤ 4294967295 ∧
      entryMax.medium ≤ 4294967295 ∧ entryMax.large ≤ 4294967295 ∧ entryMax.spit ≤ 4294967295 := by decide

theorem test_witness_TemperatureFactorIsClamped :
    (-100 : Int) ≤ 100 ∧ (60 : Int) ≠ -128 ∧ (12000 : Int) < 10000 + 58 * (max 10 (min 60 60) - 25) := by decide

theorem test_witness_CorrectedVolumeIsExact : rawVolume copyMax entryMax ≤ 171798691800000 := by decide

theorem test_witness_PurgeVolumeIsExact :
    entryMax.purges ≤ 255 ∧ copyMax.vp ≤ 65535 ∧ { copyMax with vp := 0 }.vp = 0 := by decide

theorem test_witness_AccumulatorIsExact :
    (99999999999999 : Nat) < 100000000000000 ∧ accumulator 99999999999999 copyMax entryMax = 2078395726599999999 := by decide

theorem test_witness_AllowanceFollowsTheTable :
    (∀ a ∈ [accountA, { accountA with mode := .frozen, pending := 64 }, { accountA with metering := .unmetered }],
      ((seated .admitted a).bay 11).state = .admitted ∧ (seated .admitted a).account 11 = a) ∧
    ((seated .releasing accountA).bay 11).state ≠ .admitted := by decide +kernel

theorem test_witness_EffectiveModeIsTheStrictest :
    ({ settings57 with hold := true }.hold = true ∧ settings57.hold = false) ∧ (account57 300).writeProtect = false ∧
      ((account57 300).bands.filter fun t => decide ((account57 300).level ≤ t.bound)) ≠ [] ∧
      (account57 5000).bands.filter (fun t => decide ((account57 5000).level ≤ t.bound)) = [] := by decide +kernel

theorem test_witness_JudgmentsRunInOrder : (known ready).entry serialA = some historyA := by decide +kernel

/-! ### Witnesses: the end of an exchange -/

/-- Bay 11's exchange with the engine's answer 5 still to come and the token's given, its slot as given. -/
def computed (k : ChallengeKind) (token : BitVec 128) (slot : Slot) (r : BayRec) (h : HistoryEntry) : State :=
  let s := withBayRec (computing { bay := 11, answer := 5, discarded := false } (known ready)) 11 r
  withContext { s with
    digest := { s.digest with slots := s.digest.slots.set 3 slot }, refill := { s.refill with table := [h] } } 11
    { Context.closed with kind := some k, slot := some 3, job := .computing, tokenAnswer := some token }

/-- The same with the engine's answer there and the token's still to come. -/
def fetched (s : State) : State :=
  withContext (busy (.answerFetch .admission) .fetch s) 11
    { s.context 11 with tokenAnswer := none, job := .done, expected := .present 5 }

/-- Bay 11 at the end of an admission or of a re-challenge. -/
def examined (k : ChallengeKind) : BayRec :=
  match k with
  | .admission => bayIn .challenging
  | .rechallenge => { bayIn .admitted with rechallenge := .running }

theorem exchangeEnds_computed (k : ChallengeKind) (token : BitVec 128) (slot : Slot) (r : BayRec) (h : HistoryEntry) :
    exchangeEnds (computed k token slot r h) .engineDone 11 token 5 := by
  refine ⟨?_, .inl ⟨rfl, rfl, rfl, ?_⟩⟩ <;> rfl

theorem exchangeEnds_fetched (k : ChallengeKind) (token : BitVec 128) (slot : Slot) (r : BayRec) (h : HistoryEntry) :
    exchangeEnds (fetched (computed k token slot r h)) (.answerFetchReply 2 (tokenFrame 0 (beBytes 16 9))) 11 9 5 := by
  refine ⟨?_, .inr ⟨running (.answerFetch .admission) .fetch, beBytes 16 9, rfl, by decide, by decide, ?_, rfl, rfl, rfl, rfl, ?_⟩⟩
    <;> rfl

theorem test_witness_ExchangeOutcomesMoveTheBay :
    (∀ k ∈ [ChallengeKind.admission, .rechallenge], ∀ m ∈ [0, 1], ∀ x ∈ [slotA, { slotA with state := .revoked }],
      ∀ a ∈ [5, 6],
      let s := computed k (BitVec.ofNat 128 a) x { examined k with mismatches := m } historyA
      exchangeEnds s .engineDone 11 (BitVec.ofNat 128 a) 5 ∧ (s.context 11).slot = some 3 ∧ (s.context 11).kind = some k ∧
        (s.slot 3).state = x.state ∧ (s.bay 11).mismatches = m) ∧
    (∀ p ∈ [(historyA, pageU 1200, Verdict.genuine), (historyA, { pageU 1200 with spent := true }, .refilled),
        ({ historyA with highWater := 1201 }, pageU 1200, .rollback), ({ historyA with retired := true }, pageU 1200, .clone)],
      let h : HistoryEntry := { p.1 with debtQuanta := 65535, debtResidue := 99999999999999, doubt := some { base := 0, amount := 1 } }
      let s := fetched (computed .admission 5 slotA { examined .admission with usagePage := some p.2.1 } h)
      exchangeEnds s (.answerFetchReply 2 (tokenFrame 0 (beBytes 16 9))) 11 9 5 ∧
        (s.bay 11).identityPage = some pageI ∧ (s.bay 11).calibrationPage = some pageC ∧ (s.bay 11).usagePage = some p.2.1 ∧
        s.entry pageI.serial = some h ∧ h.debtResidue < 100000000000000 ∧ s.verdict 11 pageI.serial p.2.1 = p.2.2) := by
  refine ⟨fun k hk m hm x hx a ha => ⟨exchangeEnds_computed _ _ _ _ _, ?_⟩, fun p hp => ⟨exchangeEnds_fetched _ _ _ _ _, ?_⟩⟩
  · revert k m x a; decide +kernel
  · revert p; decide +kernel

end Sys2Proof.Tests
end

section
/-! PROOF. The arbiter (R29): the class it takes, the two orders it chooses by within a class, and the choice built from them. -/

namespace Sys2Proof.Machine

variable {s : State} {n : Bus} {b c last : Bay} {k : Nat}

/-- What `find?` returns comes first, in the list's own order, among the elements that pass the test. -/
theorem rel_of_find?_eq_some {α : Type} {r : α → α → Prop} {p : α → Bool} {l : List α} {a x : α} (hl : l.Pairwise r)
    (hr : r a a) (h : l.find? p = some a) (hx : x ∈ l) (hp : p x = true) : r a x := by
  obtain ⟨-, before, after, rfl, hbefore⟩ := List.find?_eq_some_iff_append.1 h
  obtain ⟨-, hafter, -⟩ := List.pairwise_append.1 hl
  rcases List.mem_append.1 hx with hx | hx
  · exact absurd hp (by simpa using hbefore x hx)
  · rcases List.mem_cons.1 hx with rfl | hx
    · exact hr
    · exact List.rel_of_pairwise_cons hafter hx

/-! ### The bays of a bus, in order and in turn -/

theorem mem_busBays : c ∈ busBays n ↔ busOf c = n := by
  simp only [busBays, bayOn, busOf, Fin.ext_iff, List.mem_cons, List.not_mem_nil, or_false]
  omega

theorem pairwise_busBays (n : Bus) : (busBays n).Pairwise (· < ·) := by
  simp [busBays, bayOn]

theorem mem_turnOrder : c ∈ turnOrder n last ↔ busOf c = n := by
  simp only [turnOrder, bayOn, busOf, Fin.ext_iff, List.mem_cons, List.not_mem_nil, or_false]
  omega

/-- How many bays of its bus stand before bay `b` in the turn that begins after `last`. -/
def turnDistance (last b : Bay) : Nat := (b.val + 3 - last.val % 4) % 4

theorem turnDistance_bayOn (last : Bay) (n : Bus) (k : Nat) :
    turnDistance last (bayOn n k) = (k % 4 + 3 - last.val % 4) % 4 := by
  simp only [turnDistance, bayOn]
  omega

theorem pairwise_turnOrder (n : Bus) (last : Bay) :
    (turnOrder n last).Pairwise fun b c => turnDistance last b ≤ turnDistance last c := by
  simp [turnOrder, turnDistance_bayOn]
  omega

/-! ### The class taken -/

theorem State.postedClass_eq_some_iff :
    s.postedClass b = some k ↔ ∃ q, (s.port b).posted = some q ∧ requestClass (s.account b) q = k := by
  simp [State.postedClass]

theorem requestClass_mem (a : Account) (q : BusRequest) : requestClass a q ∈ [1, 2, 3, 4, 5] := by
  unfold requestClass
  split
  case h_2 => split <;> decide
  all_goals decide

/-- The class taken is one in which some bay of the bus has a request posted. -/
theorem State.exists_postedClass_of_bestClass (h : s.bestClass n = some k) :
    ∃ c, busOf c = n ∧ s.postedClass c = some k := by
  simpa [mem_busBays] using List.find?_some h

/-- No bay of the bus has a request of a higher class posted than the class taken. -/
theorem State.bestClass_le_requestClass {q : BusRequest} (h : s.bestClass n = some k) (hc : busOf c = n)
    (hq : (s.port c).posted = some q) : k ≤ requestClass (s.account c) q := by
  have hposted : (busBays n).any (fun b => s.postedClass b = some (requestClass (s.account c) q)) = true :=
    List.any_eq_true.2 ⟨c, mem_busBays.2 hc, by simp [State.postedClass, hq]⟩
  exact rel_of_find?_eq_some (by decide : [1, 2, 3, 4, 5].Pairwise (· ≤ ·)) (le_refl k) h (requestClass_mem _ _) hposted

theorem State.bestClass_eq_none_iff : s.bestClass n = none ↔ ∀ c, busOf c = n → (s.port c).posted = none := by
  constructor
  · intro h c hc
    by_contra hne
    obtain ⟨q, hq⟩ := Option.ne_none_iff_exists'.1 hne
    refine List.find?_eq_none.1 h _ (requestClass_mem (s.account c) q) (List.any_eq_true.2 ⟨c, mem_busBays.2 hc, ?_⟩)
    simp [State.postedClass, hq]
  · intro h
    cases hk : s.bestClass n with
    | none => rfl
    | some k =>
      obtain ⟨c, hc, hclass⟩ := State.exists_postedClass_of_bestClass hk
      simp [State.postedClass, h c hc] at hclass

/-! ### The largest pending -/

theorem State.largestPending_eq_none_iff {l : List Bay} : s.largestPending l = none ↔ l = [] := by
  cases l with
  | nil => simp [State.largestPending]
  | cons b l =>
    rw [State.largestPending]
    split
    · simp
    · split <;> simp

/-- Bay `b` comes before bay `c` in class 2: it has more pending, or as much and is not the higher bay (R29). -/
def State.pendingBefore (s : State) (b c : Bay) : Prop :=
  (s.account c).pending < (s.account b).pending ∨ ((s.account c).pending = (s.account b).pending ∧ b.val ≤ c.val)

theorem State.pendingBefore_of_largestPending {l : List Bay} (hl : l.Pairwise (· < ·)) (h : s.largestPending l = some b)
    (hc : c ∈ l) : s.pendingBefore b c := by
  unfold State.pendingBefore
  induction l generalizing b c with
  | nil => exact nomatch hc
  | cons a l ih =>
    obtain ⟨ha, hl⟩ := List.pairwise_cons.1 hl
    rw [State.largestPending] at h
    split at h
    case h_1 hnone =>
      obtain rfl := State.largestPending_eq_none_iff.1 hnone
      obtain rfl := Option.some.inj h
      obtain rfl := List.mem_singleton.1 hc
      exact .inr ⟨rfl, le_refl _⟩
    case h_2 d hd =>
      have hfirst : a.val < d.val := ha d (State.largestPending_mem hd)
      have hrest : c = a ∨ c ∈ l := List.mem_cons.1 hc
      split at h <;> obtain rfl := Option.some.inj h <;> rcases hrest with rfl | hrest
      · omega
      · exact ih hl hd hrest
      · omega
      · have := ih hl hd hrest
        omega

/-! ### The choice -/

theorem State.choice_eq_none_iff : s.choice n = none ↔ s.bestClass n = none := by
  unfold State.choice
  split
  case h_1 hnone => simp [hnone]
  case h_2 k hk =>
    obtain ⟨c, hc, hclass⟩ := State.exists_postedClass_of_bestClass hk
    have hbays := mem_busBays.2 hc
    have hturn := (mem_turnOrder (last := (s.bus n).lastGranted)).2 hc
    split
    case isTrue htwo =>
      subst htwo
      have : c ∈ (busBays n).filter fun b => s.postedClass b = some 2 := by simp [hbays, hclass]
      simp [hk, State.largestPending_eq_none_iff, List.ne_nil_of_mem this]
    case isFalse =>
      simp only [hk, reduceCtorEq, iff_false, List.find?_eq_none]
      exact fun h => h c hturn (by simp [hclass])

/-- What a choice says: the bay chosen has a request of the class taken, and comes first of the bus's bays that have one, by
pending in class 2 and by turn in every other class. -/
theorem State.choice_eq_some (h : s.choice n = some b) :
    ∃ k, s.bestClass n = some k ∧ s.postedClass b = some k ∧
      (k = 2 → ∀ c, busOf c = n → s.postedClass c = some k → s.pendingBefore b c) ∧
      (k ≠ 2 → ∀ c, busOf c = n → s.postedClass c = some k →
        turnDistance (s.bus n).lastGranted b ≤ turnDistance (s.bus n).lastGranted c) := by
  unfold State.choice at h
  split at h
  case h_1 => exact nomatch h
  case h_2 k hk =>
    refine ⟨k, hk, ?_⟩
    split at h
    case isTrue htwo =>
      subst htwo
      have hclass : s.postedClass b = some 2 := by simpa using (List.mem_filter.1 (State.largestPending_mem h)).2
      refine ⟨hclass, fun _ c hc hclass' => ?_, fun hne => absurd rfl hne⟩
      exact State.pendingBefore_of_largestPending ((pairwise_busBays n).filter _) h
        (List.mem_filter.2 ⟨mem_busBays.2 hc, by simp [hclass']⟩)
    case isFalse hne =>
      have hclass : s.postedClass b = some k := by simpa using List.find?_some h
      refine ⟨hclass, fun htwo => absurd htwo hne, fun _ c hc hclass' => ?_⟩
      exact (rel_of_find?_eq_some (pairwise_turnOrder n _) (le_refl _) h (mem_turnOrder.2 hc) (by simp [hclass']) :)

theorem State.choice_eq_none_iff_posted :
    s.choice n = none ↔ ∀ k : Fin 4, (s.port (bayOn n k)).posted = none := by
  rw [State.choice_eq_none_iff, State.bestClass_eq_none_iff]
  constructor
  · exact fun h k => h _ (busOf_bayOn n k)
  · intro h c hc
    have hbay : bayOn n (c.val % 4) = c := by
      subst hc
      exact Fin.ext (by simp only [bayOn, busOf]; omega)
    exact hbay ▸ h ⟨c.val % 4, by omega⟩

/-- Settles O18: the request chosen is of the class taken (`bestClass`), and its bay is first by pending or by turn among those
of that class (`choice_eq_some`). -/
theorem arbiterChoosesByClassThenTurn : Obligations.ArbiterChoosesByClassThenTurn := by
  intro s n
  refine ⟨State.choice_eq_none_iff_posted, fun b hb => ?_⟩
  obtain ⟨k, hk, hclass, hpending, hturn⟩ := State.choice_eq_some hb
  obtain ⟨q, hq, rfl⟩ := State.postedClass_eq_some_iff.1 hclass
  refine ⟨State.choice_bus hb, q, hq, fun c r hc hr => State.bestClass_le_requestClass hk hc hr, ?_, ?_⟩
  · intro htwo c r hc hr hr2
    exact hpending htwo c hc (State.postedClass_eq_some_iff.2 ⟨r, hr, hr2.trans htwo.symm⟩)
  · intro hne c r hc hr hsame
    exact hturn hne c hc (State.postedClass_eq_some_iff.2 ⟨r, hr, hsame⟩)

end Sys2Proof.Machine
end

section
/-! PROOF. The ink arithmetic (R68 to R72): each stage's closed form, its bounds over the ranges of its operands, and the
largest copy and entry, at which the bounds are reached. -/

namespace Sys2Proof.Machine

/-! ### The largest operands -/

/-- The calibration copy with every drop volume, the coefficient and the purge volume at its greatest value. -/
def largestCopy : CalibrationCopy := { vS := 10000, vM := 10000, vL := 10000, k := 100, vp := 65535 }

/-- A usage entry with every count at its greatest value, at the hot end of the temperature clamp. -/
def largestEntry : UsageEntry :=
  { bay := 0, small := 4294967295, medium := 4294967295, large := 4294967295, spit := 4294967295, purges := 255,
    temperature := 60 }

variable {c : CalibrationCopy} {e f : UsageEntry} {k t lo hi v : Int} {n m p : Nat}

/-! ### Stage 1: the raw volume -/

/-- R68: the greatest product of a drop count and a drop volume. -/
theorem drops_mul_volume_le (hn : n ≤ 4294967295) (hv : m ≤ 10000) : n * m ≤ 42949672950000 :=
  Nat.mul_le_mul hn hv

theorem rawVolume_le (hS : e.small * c.vS ≤ p) (hM : e.medium * c.vM ≤ p) (hL : e.large * c.vL ≤ p)
    (hspit : e.spit * c.vM ≤ p) : rawVolume c e ≤ 4 * p := by
  unfold rawVolume
  omega

/-! ### Stage 2: the temperature factor -/

theorem le_clampInt : lo ≤ clampInt lo hi v := le_max_left _ _

theorem clampInt_le (h : lo ≤ hi) : clampInt lo hi v ≤ hi := max_le h (min_le_left _ _)

/-- R69: the factor before its own clamp. -/
def unclampedFactor (k t : Int) : Int := 10000 + k * (clampInt 10 60 t - 25)

@[simp] theorem temperatureFactor_none : temperatureFactor k (-128) = 10000 := rfl

theorem temperatureFactor_eq_clamp (ht : t ≠ -128) :
    (temperatureFactor k t : Int) = clampInt 8000 12000 (unclampedFactor k t) := by
  have hnonneg : 0 ≤ clampInt 8000 12000 (unclampedFactor k t) := le_trans (by decide) le_clampInt
  rw [temperatureFactor, if_neg ht]
  exact Int.toNat_of_nonneg hnonneg

theorem temperatureFactor_le (k t : Int) : temperatureFactor k t ≤ 12000 := by
  by_cases ht : t = -128
  · subst ht
    simp
  · have hclamped : (temperatureFactor k t : Int) ≤ 12000 := temperatureFactor_eq_clamp ht ▸ clampInt_le (by decide)
    exact_mod_cast hclamped

/-- A coefficient within `a` and a difference of degrees within `b` move the unclamped factor by at most `a * b`. -/
theorem abs_unclampedFactor_sub_le {a b : Int} (hk : |k| ≤ a) (ht : |clampInt 10 60 t - 25| ≤ b) :
    |unclampedFactor k t - 10000| ≤ a * b := by
  rw [unclampedFactor, add_sub_cancel_left, abs_mul]
  exact mul_le_mul hk ht (abs_nonneg _) ((abs_nonneg _).trans hk)

/-- R69: the held temperature is at most 35 degrees from 25 °C, at the hot end. -/
theorem abs_heldTemperature_sub_le : |clampInt 10 60 t - 25| ≤ 35 := by
  have hlow : 10 ≤ clampInt 10 60 t := le_clampInt
  have hhigh : clampInt 10 60 t ≤ 60 := clampInt_le (by decide)
  exact abs_le.2 ⟨by omega, by omega⟩

/-- R69: at 25 °C or below it is at most 15 degrees from 25 °C. -/
theorem abs_heldTemperature_sub_le_of_cold (ht : t ≤ 25) : |clampInt 10 60 t - 25| ≤ 15 := by
  have hlow : 10 ≤ clampInt 10 60 t := le_clampInt
  have hhigh : clampInt 10 60 t ≤ 25 := max_le (by decide) ((min_le_right _ _).trans ht)
  exact abs_le.2 ⟨by omega, by omega⟩

theorem unclampedFactor_bounds (hk : |k| ≤ 100) : 6500 ≤ unclampedFactor k t ∧ unclampedFactor k t ≤ 13500 := by
  have hmoved := abs_le.1 (abs_unclampedFactor_sub_le hk (abs_heldTemperature_sub_le (t := t)))
  omega

/-- R69: at 25 °C or below the second clamp never acts, since 100 · 15 is below 2000. -/
theorem unclampedFactor_of_cold (hk : |k| ≤ 100) (ht : t ≤ 25) :
    8000 ≤ unclampedFactor k t ∧ unclampedFactor k t ≤ 12000 := by
  have hmoved := abs_le.1 (abs_unclampedFactor_sub_le hk (abs_heldTemperature_sub_le_of_cold ht))
  omega

/-- R69: with a coefficient of at most 57 in either sign the second clamp never acts, since 57 · 35 is below 2000. -/
theorem unclampedFactor_of_small (hk : |k| ≤ 57) : 8000 ≤ unclampedFactor k t ∧ unclampedFactor k t ≤ 12000 := by
  have hmoved := abs_le.1 (abs_unclampedFactor_sub_le hk (abs_heldTemperature_sub_le (t := t)))
  omega

/-- R69: the second clamp acts only at the hot end with a large coefficient, in either sign. -/
theorem hot_of_unclampedFactor_outside (hk : |k| ≤ 100) (hout : unclampedFactor k t < 8000 ∨ 12000 < unclampedFactor k t) :
    25 < t ∧ (k ≤ -58 ∨ 58 ≤ k) := by
  constructor
  · by_contra hcold
    have := unclampedFactor_of_cold hk (not_lt.1 hcold)
    omega
  · by_contra hsmall
    have := unclampedFactor_of_small (k := k) (t := t) (abs_le.2 ⟨by omega, by omega⟩)
    omega

/-! ### Stages 3 to 5: the corrected volume, the purge volume and the accumulator -/

theorem correctedVolume_le (h : rawVolume c e ≤ n) : correctedVolume c e ≤ n * 12000 :=
  Nat.mul_le_mul h (temperatureFactor_le _ _)

theorem purgeVolume_le (hn : e.purges ≤ n) (hp : c.vp ≤ p) : purgeVolume c e ≤ n * p * 1000000000 :=
  Nat.mul_le_mul_right _ (Nat.mul_le_mul hn hp)

/-- R71: the purge volume reads nothing of the entry but its purge events. -/
theorem purgeVolume_congr (h : e.purges = f.purges) : purgeVolume c e = purgeVolume c f := by
  rw [purgeVolume, h, purgeVolume]

theorem purgeVolume_of_vp_zero (h : c.vp = 0) : purgeVolume c e = 0 := by
  rw [purgeVolume, h, Nat.mul_zero, Nat.zero_mul]

/-! ### The statements -/

/-- Settles O51: four products, each at most `drops_mul_volume_le`; the largest copy and entry reach the sum. -/
theorem rawVolumeIsExact : Obligations.RawVolumeIsExact := by
  refine ⟨fun _ _ => rfl, fun c e hS hM hL hs hm hl hspit => ?_,
    largestCopy, largestEntry, rfl, rfl, rfl, rfl, rfl, rfl, rfl, rfl⟩
  have hsmall := drops_mul_volume_le hs hS
  have hmedium := drops_mul_volume_le hm hM
  have hlarge := drops_mul_volume_le hl hL
  have hspat := drops_mul_volume_le hspit hM
  exact ⟨hsmall, hmedium, hlarge, hspat, rawVolume_le hsmall hmedium hlarge hspat⟩

/-- Settles O52: the factor is the clamp of `unclampedFactor`, whose distance from 10000 is at most the coefficient's bound
times the bound on the degrees from 25 °C. -/
theorem temperatureFactorIsClamped : Obligations.TemperatureFactorIsClamped := by
  refine ⟨fun _ => temperatureFactor_none, fun _ _ => temperatureFactor_eq_clamp, fun k t hlow hhigh => ?_,
    fun _ _ => rfl, fun _ _ _ => purgeVolume_congr rfl, by decide⟩
  have hk : |k| ≤ 100 := abs_le.2 ⟨hlow, hhigh⟩
  obtain ⟨hleast, hgreatest⟩ := unclampedFactor_bounds (t := t) hk
  exact ⟨hleast, hgreatest, hot_of_unclampedFactor_outside hk⟩

/-- Settles O53: the factor is at most 12000 (`temperatureFactor_le`); the largest copy and entry reach the product. -/
theorem correctedVolumeIsExact : Obligations.CorrectedVolumeIsExact := by
  refine ⟨fun _ _ => rfl, fun c e hraw => ?_, by decide, largestCopy, largestEntry, rfl, rfl, by decide⟩
  have hbound := correctedVolume_le hraw
  exact ⟨hbound, hbound.trans_lt (by decide)⟩

/-- Settles O54: the product of the two bounds, reached by the largest copy and entry. -/
theorem purgeVolumeIsExact : Obligations.PurgeVolumeIsExact :=
  ⟨fun _ _ => rfl, fun _ _ => purgeVolume_le, fun _ _ _ => purgeVolume_congr, ⟨largestCopy, largestEntry, rfl, rfl, rfl⟩,
    fun _ _ => purgeVolume_of_vp_zero⟩

/-- Settles O55: the bounds of stages 1, 3 and 4 added to a residue below a quantum. -/
theorem accumulatorIsExact : Obligations.AccumulatorIsExact := by
  refine ⟨fun _ _ _ => rfl, fun r c e hr hS hM hL hp hs hm hl hspit hpurges => ?_⟩
  have hraw : rawVolume c e ≤ 171798691800000 :=
    rawVolume_le (drops_mul_volume_le hs hS) (drops_mul_volume_le hm hM) (drops_mul_volume_le hl hL)
      (drops_mul_volume_le hspit hM)
  have hcorrected := correctedVolume_le hraw
  have hpurge := purgeVolume_le hpurges hp
  unfold accumulator
  omega

end Sys2Proof.Machine
end

section
/-! PROOF. The allowance (R105, R106): one lemma per row of the rule's table, and law 8 from the rows. -/

namespace Sys2Proof.Machine

open Sys2Proof.Safety

variable {r : BayRec} {a : Account}

/-! ### The rows of R105's table -/

theorem allowanceOf_of_not_admitted (hstate : r.state ≠ .admitted) : allowanceOf r a = 0 :=
  if_neg hstate

theorem allowanceOf_of_unmetered (hstate : r.state = .admitted) (hmetering : a.metering = .unmetered) :
    allowanceOf r a = 65535 := by
  rw [allowanceOf, if_pos hstate, hmetering, Config.allOnes16]

theorem allowanceOf_of_not_frozen (hstate : r.state = .admitted) (hmetering : a.metering = .metered)
    (hmode : a.mode ≠ .frozen) : allowanceOf r a = a.remaining := by
  simp only [allowanceOf, if_pos hstate, hmetering, if_neg hmode]

/-- R106: natural subtraction stops at 0, so the rule's max(0, …) adds nothing. -/
theorem allowanceOf_of_frozen (hstate : r.state = .admitted) (hmetering : a.metering = .metered)
    (hmode : a.mode = .frozen) : allowanceOf r a = min a.remaining (max 0 (64 - a.pending)) := by
  simp only [allowanceOf, if_pos hstate, hmetering, if_pos hmode, Config.frozenPendingLimit, Nat.zero_max]

/-! ### Law 8 -/

/-- A METERED account's allowance invites no more ink than remains, in either of its two rows. -/
theorem allowanceOf_le_remaining (hstate : r.state = .admitted) (hmetering : a.metering = .metered) :
    allowanceOf r a ≤ a.remaining := by
  by_cases hmode : a.mode = .frozen
  · rw [allowanceOf_of_frozen hstate hmetering hmode]
    exact min_le_left _ _
  · exact (allowanceOf_of_not_frozen hstate hmetering hmode).le

/-- Law 8 needs no invariant: the allowance is computed when it is asked for, so every state meets it. -/
theorem law8_of_any (s : State) : law8 s := fun _ =>
  ⟨allowanceOf_of_not_admitted, allowanceOf_le_remaining, allowanceOf_of_unmetered⟩

/-! ### The statement -/

/-- Settles O56: the rows of R105's table, and law 8 built from them. -/
theorem allowanceFollowsTheTable : Obligations.AllowanceFollowsTheTable := fun s _ =>
  ⟨allowanceOf_of_not_frozen, allowanceOf_of_frozen, allowanceOf_of_unmetered, allowanceOf_of_not_admitted, law8_of_any s⟩

end Sys2Proof.Machine
end

section
/-! PROOF. What a command can do, said once for all of them: `Stepped s t` holds when `t` comes from `s` by the shared operations'
changes (`Edit`) and by the few changes that are no shared operation's. A predicate that each of these keeps is kept by the step. -/

namespace Sys2Proof.Machine

open Sys2Proof.Safety

/-! ### The changes a command is made of -/

/-- The changes a command is made of. -/
inductive Stepped (s : State) : State → Prop where
  | refl : Stepped s s
  | edit {x t : State} (h : Edit x t) : Stepped s x → Stepped s t
  /-- A cold reset (8.6). -/
  | reset {x : State} (i : ResetInputs) : Stepped s x → Stepped s (x.resetBlocks i)
  /-- A taken request joins a queue with room, which does not hold its tag (R167, R168). -/
  | enqueue {x : State} (e : QueueEntry) (hl : x.dispatcher.queue.length < 8) (ht : ∀ q ∈ x.dispatcher.queue, q.tag ≠ e.tag) :
      Stepped s x → Stepped s (x.enqueue e)
  /-- A request whose reply has been sent leaves the queue (R168). -/
  | leave {x : State} (r : Reply) : Stepped s x → Stepped s (x.leaveQueue r)
  /-- SET-MASK (R159). -/
  | mask {x : State} (m : Nat) (e : BitVec 21) : Stepped s x →
      Stepped s (x.modNotice fun u => { u with mask := min m 7, enables := e ||| forcedEnables })
  /-- A FAULTS that clears (R163). -/
  | clearFaults {x : State} : Stepped s x → Stepped s (x.modNotice fun u => { u with faults := [] })
  /-- LOCK-LEVEL (R171). -/
  | lock {x : State} (n : Nat) (h : n ≤ 2) : Stepped s x →
      Stepped s (x.modDispatcher fun d => { d with lockFloor := max d.lockFloor n })

variable {s x t : State}

theorem Edit.stepped (h : Edit s t) : Stepped s t := .edit h .refl

theorem State.finish_stepped (e : QueueEntry) (r : ResultCode) (p : List Byte) (h : Stepped s x) : Stepped s (x.finish e r p) :=
  .edit (State.finish_edit e r p .refl) h

/-! ### Requests -/

theorem State.serveSetMask_stepped (e : QueueEntry) (h : Stepped s x) : Stepped s (x.serveSetMask e) :=
  State.finish_stepped _ _ _ (h.mask _ _)

theorem State.serveFaults_stepped (e : QueueEntry) (h : Stepped s x) : Stepped s (x.serveFaults e) := by
  unfold State.serveFaults; split
  · exact State.finish_stepped _ _ _ h
  · refine State.finish_stepped _ _ _ ?_
    split
    · exact h.clearFaults
    · exact h

theorem State.serveLockLevel_stepped (e : QueueEntry) (h : Stepped s x) : Stepped s (x.serveLockLevel e) := by
  unfold State.serveLockLevel; dsimp only; split
  · rename_i hl
    exact State.finish_stepped _ _ _ (h.lock _ hl)
  · exact State.finish_stepped _ _ _ h

theorem State.serve_stepped (e : QueueEntry) (h : Stepped s x) : Stepped s (x.serve e) := by
  by_cases hm : e.kind = .setMask
  · simpa only [State.serve, hm] using State.serveSetMask_stepped e h
  by_cases hf : e.kind = .faults
  · simpa only [State.serve, hf] using State.serveFaults_stepped e h
  by_cases hl : e.kind = .lockLevel
  · simpa only [State.serve, hl] using State.serveLockLevel_stepped e h
  · exact .edit (State.serve_edit e hm hf hl .refl) h

/-- The replies of one event are put in order on the line, which is one more change of it. -/
theorem State.together_stepped {f : State → State} (h : Stepped s (f x)) : Stepped s (x.together f) := by
  obtain ⟨l, n, ht⟩ := x.together_only f
  rw [ht]
  exact .edit ((Edit.refl.link l).free n) h

/-- R167: a request is taken only by a queue that has room and does not hold its tag. -/
theorem State.judgeArrival_ok {kind tag claimed : Byte} {p : List Byte} {k : RequestKind}
    (h : x.judgeArrival kind tag claimed p = .ok k) :
    x.dispatcher.queue.length < 8 ∧ ∀ q ∈ x.dispatcher.queue, q.tag ≠ tag := by
  unfold State.judgeArrival at h
  split at h
  · exact nomatch h
  · rename_i hl
    split at h
    · exact nomatch h
    · rename_i ht
      exact ⟨Nat.not_le.1 hl, by simpa [List.any_eq_true] using ht⟩

theorem State.deliver_stepped (kind tag claimed : Byte) (p : List Byte) (h : Stepped s x) :
    Stepped s (x.deliver kind tag claimed p) := by
  unfold State.deliver; split
  · exact .edit (State.refuse_edit _ _ _ .refl) h
  · rename_i k hk
    obtain ⟨hl, ht⟩ := State.judgeArrival_ok hk
    exact State.together_stepped (State.serve_stepped _ (h.enqueue (x.newEntry k tag claimed p) hl ht))

/-! ### The link -/

theorem State.setReceiver_stepped (r : Receiver) (h : Stepped s x) : Stepped s (x.setReceiver r) :=
  .edit (State.modLink_edit _ .refl) h

theorem State.judgeFrame_stepped (body : List Byte) (crc : BitVec 16) (h : Stepped s x) : Stepped s (x.judgeFrame body crc) := by
  unfold State.judgeFrame; split
  · split
    · exact State.deliver_stepped _ _ _ _ h
    · exact h
  · exact h

theorem State.receive_stepped (b : Byte) (h : Stepped s x) : Stepped s (x.receive b) := by
  unfold State.receive; split
  · exact State.setReceiver_stepped _ h
  · exact State.setReceiver_stepped _ h
  · exact State.setReceiver_stepped _ h
  · split
    · exact State.setReceiver_stepped _ h
    · exact State.judgeFrame_stepped _ _ (State.setReceiver_stepped _ h)

theorem State.replyFinished_stepped (h : Stepped s x) : Stepped s x.replyFinished := by
  unfold State.replyFinished; split
  · exact h
  · rename_i r _ _
    refine .edit (State.modLink_edit _ ?_) (h.leave r)
    unfold State.changeRate; split
    · split
      · exact .refl
      · exact State.modLink_edit _ .refl
    · exact .refl

/-! ### Every command -/

theorem execPresenceRise_edit (b : Bay) (s : State) : ∃ t, execPresenceRise b s = .next t ∧ Edit s t := by
  refine ⟨_, rfl, ?_⟩
  split
  · exact State.enterSettling_edit _ (State.setPresence_edit _ _ .refl)
  · exact State.setPresence_edit _ _ .refl

theorem execPresenceDrop_edit (b : Bay) (s : State) : ∃ t, execPresenceDrop b s = .next t ∧ Edit s t := by
  refine ⟨_, rfl, ?_⟩
  split
  · exact State.setPresence_edit _ _ .refl
  · exact State.modBay_edit _ _ (State.setPresence_edit _ _ .refl)
  · exact State.together_edit (State.withdraw_edit _ (State.setPresence_edit _ _ .refl))

theorem execSettleTimerExpiry_edit (b : Bay) (s : State) : ∃ t, execSettleTimerExpiry b s = .next t ∧ Edit s t := by
  refine ⟨_, rfl, ?_⟩
  split
  · split
    · exact State.enterIdentifying_edit _ .refl
    · exact State.modBay_edit _ _ .refl
  · exact .refl

theorem execRechallengeTimerExpiry_edit (b : Bay) (s : State) : ∃ t, execRechallengeTimerExpiry b s = .next t ∧ Edit s t := by
  refine ⟨_, rfl, ?_⟩
  split
  · exact State.modBay_edit _ _ .refl
  · exact .refl

theorem execEraseDone_edit (x : Sector) (r : EraseResult) (s : State) : ∃ t, execEraseDone x r s = .next t ∧ Edit s t := by
  refine ⟨_, rfl, ?_⟩
  split
  · split
    · exact State.eraseSucceeded_edit _ .refl
    · exact State.eraseFailed_edit _ _ _ .refl
  · exact .refl

theorem execEraseTimeout_edit (x : Sector) (m : Bool) (s : State) : ∃ t, execEraseTimeout x m s = .next t ∧ Edit s t := by
  refine ⟨_, rfl, ?_⟩
  split
  · exact State.eraseFailed_edit _ _ _ .refl
  · exact .refl

theorem execStartupFinish_edit (s : State) : ∃ t, execStartupFinish s = .next t ∧ Edit s t := by
  refine ⟨_, rfl, ?_⟩
  split
  · exact State.leaveStarting_edit (State.startupComplete_edit .refl)
  · exact .refl

theorem State.coldReset_stepped (i : ResetInputs) (s : State) : Stepped s (s.coldReset i) :=
  .edit (State.startErases_edit (State.replay_edit .refl)) (.reset i .refl)

/-- A command whose next state is an `Edit` is `Stepped`. -/
theorem stepped_of_edit {o : Host.Outcome State Fault Refusal} (h : ∃ t, o = .next t ∧ Edit s t) :
    ∃ t, o = .next t ∧ Stepped s t := by
  obtain ⟨t, ho, ht⟩ := h
  exact ⟨t, ho, ht.stepped⟩

/-- Every command ends in a next state, made by the changes of `Stepped`. -/
theorem exec_stepped (c : Instr) (s : State) : ∃ t, exec c s = .next t ∧ Stepped s t := by
  cases c with
  | coldReset i => exact ⟨_, rfl, s.coldReset_stepped i⟩
  | slotTableReadDone => exact stepped_of_edit ⟨_, rfl, State.together_edit (State.slotTableRead_edit .refl)⟩
  | startupFinish => exact stepped_of_edit (execStartupFinish_edit s)
  | presenceRise b => exact stepped_of_edit (execPresenceRise_edit b s)
  | presenceDrop b => exact stepped_of_edit (execPresenceDrop_edit b s)
  | settleTimerExpiry b => exact stepped_of_edit (execSettleTimerExpiry_edit b s)
  | rechallengeTimerExpiry b => exact stepped_of_edit (execRechallengeTimerExpiry_edit b s)
  | rechallengeStart b => exact stepped_of_edit ⟨_, rfl, State.together_edit (State.startRechallenge_edit b .refl)⟩
  | postNextOperation b => exact stepped_of_edit ⟨_, rfl, State.together_edit (State.chooseNext_edit b .refl)⟩
  | busGrant n => exact stepped_of_edit ⟨_, rfl, State.grant_edit n .refl⟩
  | restTimerExpiry n => exact stepped_of_edit ⟨_, rfl, State.restExpired_edit n .refl⟩
  | tokenReplyTimeout n => exact stepped_of_edit ⟨_, rfl, State.together_edit (State.replyTimedOut_edit n .refl)⟩
  | identReadReply n f => exact stepped_of_edit ⟨_, rfl, State.together_edit (State.identityReply_edit n f .refl)⟩
  | nonceSendAcknowledgement n f => exact stepped_of_edit ⟨_, rfl, State.together_edit (State.nonceReply_edit n f .refl)⟩
  | answerTimerExpiry b => exact stepped_of_edit ⟨_, rfl, State.answerTimerExpired_edit b .refl⟩
  | answerFetchReply n f => exact stepped_of_edit ⟨_, rfl, State.together_edit (State.fetchReply_edit n f .refl)⟩
  | engineDone => exact stepped_of_edit ⟨_, rfl, State.together_edit (State.engineDone_edit .refl)⟩
  | armReply n f => exact stepped_of_edit ⟨_, rfl, State.together_edit (State.armReplied_edit n f .refl)⟩
  | loadReply n f => exact stepped_of_edit ⟨_, rfl, State.together_edit (State.loadReplied_edit n f .refl)⟩
  | burnEnd n => exact stepped_of_edit ⟨_, rfl, State.burnEnded_edit n .refl⟩
  | confirmReply n f => exact stepped_of_edit ⟨_, rfl, State.together_edit (State.confirmReplied_edit n f .refl)⟩
  | markReply n f => exact stepped_of_edit ⟨_, rfl, State.markReplied_edit n f .refl⟩
  | checkReadReply n f => exact stepped_of_edit ⟨_, rfl, State.together_edit (State.checkReplied_edit n f .refl)⟩
  | storeWriteDone r => exact stepped_of_edit ⟨_, rfl, State.storeWriteEnded_edit r .refl⟩
  | storeWriteTimeout l => exact stepped_of_edit ⟨_, rfl, State.storeWriteEnded_edit _ .refl⟩
  | supplyWarnAsserted => exact stepped_of_edit ⟨_, rfl, State.warnAsserted_edit .refl⟩
  | supplyCritAsserted => exact stepped_of_edit ⟨_, rfl, State.critAsserted_edit .refl⟩
  | supplyLineDeasserted l => exact stepped_of_edit ⟨_, rfl, State.lineDeasserted_edit l .refl⟩
  | saveDeadlineExpiry => exact stepped_of_edit ⟨_, rfl, State.deadlineExpired_edit .refl⟩
  | writerTakeRecord => exact stepped_of_edit ⟨_, rfl, State.takeRecord_edit .refl⟩
  | recordWriteDone ok => exact stepped_of_edit ⟨_, rfl, State.recordWriteEnd_edit _ .refl⟩
  | recordWriteTimeout => exact stepped_of_edit ⟨_, rfl, State.recordWriteEnd_edit _ .refl⟩
  | headerWriteDone ok => exact stepped_of_edit ⟨_, rfl, State.headerWriteEnd_edit _ .refl⟩
  | headerWriteTimeout => exact stepped_of_edit ⟨_, rfl, State.headerWriteEnd_edit _ .refl⟩
  | eraseDone x r => exact stepped_of_edit (execEraseDone_edit x r s)
  | eraseTimeout x m => exact stepped_of_edit (execEraseTimeout_edit x m s)
  | receiverGapTimeout => exact ⟨_, rfl, State.setReceiver_stepped _ .refl⟩
  | linkStopBitError => exact ⟨_, rfl, State.setReceiver_stepped _ .refl⟩
  | frameCrcMismatch body crc => exact ⟨_, rfl, State.judgeFrame_stepped _ _ (State.setReceiver_stepped _ .refl)⟩
  | unknownKindRequest k t c p => exact ⟨_, rfl, State.deliver_stepped _ _ _ _ .refl⟩
  | replySent => exact ⟨_, rfl, State.replyFinished_stepped .refl⟩
  | linkByteReceived b => exact ⟨_, rfl, State.receive_stepped b .refl⟩
  | ident | status | bayQuery | historyQuery | notices | ackNotices | faults | usage | levelSense | flush | release | bayReset
  | rechallenge | configure | setBands | setClass | hold | setMask | setLink | lockLevel | slotLoad | slotRevoke =>
    exact ⟨_, rfl, State.deliver_stepped _ _ _ _ .refl⟩

/-! ### What the changes keep -/

theorem Edit.pending_eq (h : Edit s t) : t.pending = s.pending := by
  induction h with
  | refl => rfl
  | _ => assumption

theorem State.leaveQueue_pending (s : State) (r : Reply) : (s.leaveQueue r).pending = s.pending := by
  unfold State.leaveQueue; split <;> rfl

theorem Stepped.pending_eq (h : Stepped s t) : t.pending = s.pending := by
  induction h with
  | refl => rfl
  | edit h _ ih => exact h.pending_eq.trans ih
  | leave r _ ih => exact (State.leaveQueue_pending _ r).trans ih
  | _ => assumption

theorem joinFaults_length {q : List FaultRecord} (h : q.length ≤ 8) (r : FaultRecord) : (joinFaults q r).length ≤ 8 := by
  unfold joinFaults Config.faultQueueSize
  split <;> simp <;> omega

theorem Edit.noticeSound (h : Edit s t) (hs : Safety.noticeSound s) : Safety.noticeSound t := by
  induction h with
  | fault r _ ih => exact ⟨joinFaults_length ih.1 r, ih.2⟩
  | _ => assumption

/-- R159: SET-MASK leaves the enables of the priority-7 kinds on. -/
theorem forcedEnables_on (e : BitVec 21) :
    (e ||| forcedEnables).getLsbD NoticeKind.clone.index.val = true ∧
      (e ||| forcedEnables).getLsbD NoticeKind.saveEntered.index.val = true := by
  simp [forcedEnables, NoticeKind.index, NoticeKind.code]

theorem Stepped.noticeSound (h : Stepped s t) (hs : Safety.noticeSound s) : Safety.noticeSound t := by
  induction h with
  | refl => exact hs
  | edit h _ ih => exact h.noticeSound ih
  | reset i _ _ =>
    have h : Safety.noticeSound State.reset := ⟨by decide, by decide, by decide, by decide⟩
    exact h
  | leave r _ ih => unfold State.leaveQueue; split <;> exact ih
  | mask m e _ ih =>
    obtain ⟨hf, -, -, -⟩ := ih
    exact ⟨hf, Nat.min_le_right _ _, forcedEnables_on e⟩
  | clearFaults _ ih => exact ⟨Nat.zero_le _, ih.2⟩
  | enqueue | lock => assumption

theorem Edit.flashSound (h : Edit s t) (hs : Safety.flashSound s) : Safety.flashSound t := by
  induction h with
  | journal j hj _ ih => unfold Safety.flashSound at ih ⊢; rw [← hj] at ih; exact ih
  | flash m hm _ ih => exact hm ih
  | _ => assumption

/-- R152: a cold reset leaves flash as it stood. -/
theorem Journal.afterReset_flash (j : Journal) : j.afterReset.flash = j.flash := by
  unfold Journal.afterReset Journal.cutShort; cases j.writer <;> rfl

theorem Stepped.flashSound (h : Stepped s t) (hs : Safety.flashSound s) : Safety.flashSound t := by
  induction h with
  | refl => exact hs
  | edit h _ ih => exact h.flashSound ih
  | @reset x i _ ih =>
    change x.journal.afterReset.flash.wf = true
    rw [Journal.afterReset_flash]; exact ih
  | leave r _ ih => unfold State.leaveQueue; split <;> exact ih
  | _ => assumption

theorem Edit.queueSound (h : Edit s t) (hs : Safety.queueSound s) : Safety.queueSound t := by
  induction h with
  | waits q hq _ ih =>
    obtain ⟨hl, hu, hf⟩ := ih
    have len := congrArg List.length hq
    simp only [List.length_map] at len
    exact ⟨len ▸ hl, by rw [← hq] at hu; exact hu, hf⟩
  | _ => assumption

theorem Stepped.queueSound (h : Stepped s t) (hs : Safety.queueSound s) : Safety.queueSound t := by
  induction h with
  | refl => exact hs
  | edit h _ ih => exact h.queueSound ih
  | reset i _ _ =>
    refine ⟨Nat.zero_le _, List.nodup_nil, ?_, Nat.zero_le _⟩
    change strapFloorOf _ _ ≤ 2
    unfold strapFloorOf; split
    · omega
    · split <;> omega
  | enqueue e hl ht _ ih =>
    obtain ⟨-, hu, hf⟩ := ih
    refine ⟨?_, ?_, hf⟩
    · simp only [State.enqueue, State.modDispatcher_dispatcher, List.length_append, List.length_singleton]
      exact hl
    · simp only [State.enqueue, State.modDispatcher_dispatcher, List.map_append, List.map_cons, List.map_nil]
      exact List.nodup_append.2 ⟨hu, List.nodup_singleton _, by simpa using ht⟩
  | leave r _ ih =>
    unfold State.leaveQueue; split
    · obtain ⟨hl, hu, hf⟩ := ih
      exact ⟨(List.length_filter_le _ _).trans hl, hu.sublist (List.filter_sublist.map _), hf⟩
    · exact ih
  | lock n hn _ ih =>
    obtain ⟨hl, hu, hs, hk⟩ := ih
    exact ⟨hl, hu, hs, Nat.max_le.2 ⟨hk, hn⟩⟩
  | mask | clearFaults => assumption

theorem Edit.law3 (h : Edit s t) (hs : Safety.law3 s) : Safety.law3 t := by
  induction h with
  | accounts v hv _ ih =>
    refine ⟨fun b => ?_, ih.2⟩
    rcases hv b with h | h
    · exact h ▸ ih.1 b
    · exact h
  | table w hw _ ih =>
    refine ⟨ih.1, fun e he => ?_⟩
    rcases hw e he with h | ⟨f, hf, h⟩
    · exact h
    · exact h ▸ ih.2 f hf
  | _ => assumption

theorem Stepped.law3 (h : Stepped s t) (hs : Safety.law3 s) : Safety.law3 t := by
  induction h with
  | refl => exact hs
  | edit h _ ih => exact h.law3 ih
  | reset i _ _ =>
    refine ⟨fun b => ?_, fun e he => nomatch he⟩
    simp [State.account, State.resetBlocks, Account.cold, Config.quantum]
  | leave r _ ih => unfold State.leaveQueue; split <;> exact ih
  | _ => assumption

/-- R22: a bay with nothing in progress is not that of its bus's transaction. -/
theorem bay_ne_of_inProgress_false {b : Bay} {u : Transaction} (h : s.inProgress b = false)
    (hu : (s.bus (busOf b)).current = some u) : u.bay ≠ b := by
  unfold State.inProgress State.selected at h
  rw [hu] at h; simpa using h

theorem law9_post {b : Bay} {q : BusRequest} (hp : s.inProgress b = false) (h : law9 s) :
    law9 (s.modPort b fun p => { p with posted := some q }) := by
  intro n u hu
  obtain ⟨hb, hn⟩ := h n u hu
  have ne : u.bay ≠ b := fun e => bay_ne_of_inProgress_false hp (by rw [← e, hb]; exact hu) e
  exact ⟨hb, by rw [State.port_modPort, if_neg ne]; exact hn⟩

theorem law9_grantTo {n : Bus} {b : Bay} (q : BusRequest) (hb : busOf b = n) (h : law9 s) : law9 (s.grantTo n b q) := by
  intro m u hu
  have port : ∀ c : Bay, c = b ∨ (s.port c).posted = none → ((s.grantTo n b q).port c).posted = none := by
    rintro c hc
    unfold State.grantTo
    dsimp only
    rw [State.port_modBus, State.port_modPort]
    split
    · rfl
    · exact hc.resolve_left (by assumption)
  unfold State.grantTo at hu
  dsimp only at hu
  rw [State.bus_modBus] at hu
  split at hu
  · rename_i e
    obtain rfl := Option.some.inj hu
    exact ⟨hb.trans e.symm, port _ (.inl rfl)⟩
  · obtain ⟨h1, h2⟩ := h m u hu
    exact ⟨h1, port _ (.inr h2)⟩

theorem Edit.law9 (h : Edit s t) (hs : Safety.law9 s) : Safety.law9 t := by
  induction h with
  | ports v hv _ ih =>
    intro n u hu
    obtain ⟨hb, hn⟩ := ih n u hu
    exact ⟨hb, (hv u.bay).elim (fun h => h.trans hn) id⟩
  | post b q hp _ ih => exact law9_post hp ih
  | grant n b q hb _ ih => exact law9_grantTo q hb ih
  | buses v hv _ ih =>
    intro n u hu
    obtain ⟨w, hw, e⟩ := (hv n).2 u hu
    rw [← e]; exact ih n w hw
  | _ => assumption

theorem reset_bus_current (n : Bus) : (State.reset.bus n).current = none := by revert n; decide

theorem Stepped.law9 (h : Stepped s t) (hs : Safety.law9 s) : Safety.law9 t := by
  induction h with
  | refl => exact hs
  | edit h _ ih => exact h.law9 ih
  | reset i _ _ =>
    intro n u hu
    exact nomatch (reset_bus_current n).symm.trans hu
  | leave r _ ih => unfold State.leaveQueue; split <;> exact ih
  | _ => assumption

/-! ### The step -/

/-- A predicate on what is neither a timer nor the queue of commands is kept by the step if every command keeps it. -/
theorem step_keeps {p : State → Prop} (hq : ∀ s q, p s → p { s with pending := q }) (hx : ∀ s t, Stepped s t → p s → p t)
    (ht : ∀ s, p s → p s.tick) {s t : State} (h : p s) (hst : step s = .next t) : p t := by
  unfold step at hst
  split at hst
  · rename_i c rest _
    obtain ⟨u, hu, hsu⟩ := exec_stepped c { s with pending := rest }
    obtain rfl := Host.Outcome.next.inj (hu.symm.trans hst)
    exact hx _ _ hsu (hq s rest h)
  · obtain rfl := Host.Outcome.next.inj hst
    exact ht s h

theorem tick_law9 (h : law9 s) : law9 s.tick := by
  intro n u hu
  have hc : (s.bus n).current = some u := by
    simpa [State.bus, State.tick] using hu
  obtain ⟨hb, hn⟩ := h n u hc
  exact ⟨hb, by simpa [State.port, State.tick] using hn⟩

/-! ### The statements -/

/-- Settles O2: every command's next state is made by changes that leave the queue of commands alone. -/
theorem everyCommandCompletesAndLeavesTheQueue : Obligations.EveryCommandCompletesAndLeavesTheQueue := fun c s => by
  obtain ⟨t, h, ht⟩ := exec_stepped c s
  exact ⟨t, h, ht.pending_eq⟩

/-- Settles O3: each change keeps the Notice Unit's bounds, and a tick does not touch it. -/
theorem noticeUnitStaysSound : Obligations.NoticeUnitStaysSound := fun _ _ =>
  step_keeps (p := noticeSound) (fun _ _ h => h) (fun _ _ h => h.noticeSound) fun _ h => h

/-- Settles O4: each change keeps the canonical form, and a tick does not touch flash. -/
theorem flashStaysCanonical : Obligations.FlashStaysCanonical := fun _ _ =>
  step_keeps (p := flashSound) (fun _ _ h => h) (fun _ _ h => h.flashSound) fun _ h => h

/-- Settles O5: only a taken request joins the queue, with room and a new tag. -/
theorem requestQueueStaysSound : Obligations.RequestQueueStaysSound := fun _ _ =>
  step_keeps (p := queueSound) (fun _ _ h => h) (fun _ _ h => h.queueSound) fun _ h => h

/-- Settles O6: every residue a change writes is a remainder by a quantum, or 0. -/
theorem residuesStayBelowAQuantum : Obligations.ResiduesStayBelowAQuantum := fun _ _ =>
  step_keeps (p := law3) (fun _ _ h => h) (fun _ _ h => h.law3) fun _ h => h

/-- Settles O7: a bay posts only while nothing of its is in progress, and a grant takes the request it grants. -/
theorem busTransactionsStayTheirOwn : Obligations.BusTransactionsStayTheirOwn := fun _ _ =>
  step_keeps (p := law9) (fun _ _ h => h) (fun _ _ h => h.law9) fun _ => tick_law9

end Sys2Proof.Machine
end

section
/-! PROOF. The step and the reset state, the timers' expiries and the presence rise, and the computed values (R58, R89, R126, R158). -/

namespace Sys2Proof.Machine

open Sys2Proof.Safety

/-! ### The step and reset -/

/-- Settles O1: both clauses are the two branches of `step`. -/
theorem stepRunsTheFrontCommandOrTicks : Obligations.StepRunsTheFrontCommandOrTicks := by
  refine ⟨fun c rest s => rfl, fun s h => ?_⟩
  have tick : step s = .next s.tick := by
    unfold step
    split
    · rename_i hc; exact nomatch h.symm.trans hc
    · rfl
  exact tick

theorem afterReset_reset : State.reset.journal.afterReset = State.reset.journal := by decide

theorem resetBlocks_reset (landed : Bool) : State.reset.resetBlocks {
    factoryStrap := false, serviceStrap := false, supplyWarn := false, supplyCrit := false,
    presence := Vector.replicate 12 false, storeLanded := landed } = State.reset := by
  unfold State.resetBlocks
  rw [afterReset_reset]; rfl

theorem replay_reset : State.reset.replay = State.reset := by rfl

theorem startErases_reset : State.reset.startErases = State.reset := by rfl

/-- Settles O8: each block's value after a cold reset is the reset state's, and blank flash leaves nothing to replay or erase. -/
theorem resetIsColdResetAndMeetsTheInvariants : Obligations.ResetIsColdResetAndMeetsTheInvariants := by
  refine ⟨⟨⟨by decide, by decide, by decide, by decide⟩, Memory.wf_reset, ⟨by decide, by decide, by decide, by decide⟩,
    ⟨by decide, fun e he => nomatch he⟩, fun n t ht => nomatch (reset_bus_current n).symm.trans ht⟩, fun landed => ?_⟩
  change Host.Outcome.next (State.coldReset _ _) = _
  unfold State.coldReset
  rw [resetBlocks_reset, replay_reset, startErases_reset]

/-! ### The presence rise and the timers -/

/-- Settles O11: the two branches of the presence rise. -/
theorem presenceRiseStartsSettling : Obligations.PresenceRiseStartsSettling := by
  refine fun s b => ⟨fun hs hb => ?_, fun h => ?_⟩
  · change Host.Outcome.next (if _ then _ else _) = _
    rw [if_pos (by simp [hs, hb])]; rfl
  · change Host.Outcome.next (if _ then _ else _) = _
    rw [if_neg (by simpa [imp_iff_not_or] using h)]; rfl

/-- Settles O14: each expiry's branch in which its timer runs. -/
theorem timerExpiriesComplete : Obligations.TimerExpiriesComplete := by
  refine ⟨fun s b hb ht => ⟨fun hn => ?_, fun hn => ?_⟩, fun s b ht => ?_, fun s b ht => ?_, fun s n => rfl⟩
  · change Host.Outcome.next (if _ then _ else _) = _
    rw [if_pos (by simp [hb, ht]), if_pos hn]; rfl
  · change Host.Outcome.next (if _ then _ else _) = _
    rw [if_pos (by simp [hb, ht]), if_neg (by rcases hn with h | h <;> simp [h])]; rfl
  · change Host.Outcome.next (if _ then _ else _) = _
    rw [if_pos ht]; rfl
  · change Host.Outcome.next (State.answerTimerExpired _ _) = _
    unfold State.answerTimerExpired
    rw [if_pos ht]; rfl

/-! ### The effective mode (R89) -/

theorem Mode.rank_stricter (a b : Mode) : (a.stricter b).rank = max a.rank b.rank := by
  unfold Mode.stricter; split <;> omega

/-- The strictest of some modes is one of them, and none is stricter. -/
theorem foldl_stricter (ms : List Mode) (m : Mode) :
    ms.foldl Mode.stricter m ∈ m :: ms ∧ ∀ k ∈ m :: ms, k.rank ≤ (ms.foldl Mode.stricter m).rank := by
  induction ms generalizing m with
  | nil => simp
  | cons a ms ih =>
    obtain ⟨hmem, hle⟩ := ih (m.stricter a)
    have hs := m.rank_stricter a
    have first := hle _ (List.mem_cons_self ..)
    refine ⟨?_, fun k hk => ?_⟩
    · rcases List.mem_cons.1 hmem with h | h
      · rw [List.foldl_cons, h]
        unfold Mode.stricter; split <;> simp
      · exact List.mem_cons_of_mem _ (List.mem_cons_of_mem _ h)
    · rw [List.foldl_cons]
      rcases List.mem_cons.1 hk with rfl | hk
      · omega
      · rcases List.mem_cons.1 hk with rfl | hk
        · omega
        · exact hle k (List.mem_cons_of_mem _ hk)

/-- Settles O57: the branches of R89, the last a fold over the covering bands' modes. -/
theorem effectiveModeIsTheStrictest : Obligations.EffectiveModeIsTheStrictest := by
  intro x a
  have modes : candidateModes x a = (a.bands.filter fun t => decide (a.level ≤ t.bound)).map (·.mode) ++
      (x.bands.filter fun p => decide (p.low ≤ a.remaining) && decide (a.remaining ≤ p.high)).map (·.mode) := rfl
  refine ⟨fun h => ?_, fun hh hw => ?_⟩
  · unfold effectiveMode
    rw [if_pos (by simpa using h)]
  · have forced : ¬(x.hold || a.writeProtect) = true := by simp [hh, hw]
    rw [← modes]
    unfold effectiveMode
    rw [if_neg forced]
    cases candidateModes x a with
    | nil => exact ⟨fun _ => rfl, fun h => absurd rfl h⟩
    | cons m ms => exact ⟨fun h => (nomatch h), fun _ => foldl_stricter ms m⟩

/-! ### The verdict and the judgment (R126, R58) -/

theorem drawnElsewhere_iff (s : State) (b : Bay) (x : Serial) :
    s.drawnElsewhere b x = true ↔ ∃ c : Bay, c ≠ b ∧ (s.bay c).drawable = true ∧ s.serialRead c = some x := by
  have all : ∀ c : Bay, c ∈ allBays := by decide
  simp [State.drawnElsewhere, all, and_assoc]

/-- Settles O58: the checks of the verdict one after the other, and the judgment's branches. -/
theorem judgmentsRunInOrder : Obligations.JudgmentsRunInOrder := by
  refine ⟨fun s b x u e he => ?_, fun c enabled => ?_⟩
  · dsimp only
    rw [← drawnElsewhere_iff]
    unfold State.verdict
    simp only [he]
    by_cases h1 : s.drawnElsewhere b x = true
    · simp [h1]
    rw [if_neg h1]
    by_cases h2 : e.retired = true ∧ u.spent = false
    · simp [h1, h2]
    rw [if_neg (by simpa using h2)]
    by_cases h3 : u.counter < e.highWater
    · simp [h1, h2, h3]
    rw [if_neg h3]
    have h3' := Nat.not_lt.1 h3
    by_cases h4 : u.spent = true ∨ u.refill = true
    · rw [if_pos (by simpa using h4)]
      have h5 : ¬(u.spent = false ∧ u.refill = false) := by rintro ⟨h, k⟩; simp [h, k] at h4
      simp [h1, h2, h3, h3', h4, h5]
    · rw [if_neg (by simpa using h4)]
      simp only [not_or, Bool.not_eq_true] at h4
      have h2' : e.retired = false := by simpa [h4] using h2
      simp [h1, h2', h3, h3', h4]
  · unfold Context.judge
    by_cases h1 : enabled = false ∨ c.expected = .withheld
    · rw [if_pos (by simpa using h1)]
      refine ⟨by simpa using h1, ?_, ?_⟩
      · simp only [reduceCtorEq, false_iff]
        rintro ⟨he, hw, -⟩
        rcases h1 with h | h
        · exact nomatch he.symm.trans h
        · exact hw h
      · simp only [reduceCtorEq, false_iff, not_and, not_exists]
        rintro he - a ha
        rcases h1 with h | h
        · exact nomatch he.symm.trans h
        · exact nomatch ha.symm.trans h
    · rw [if_neg (by simpa using h1)]
      push Not at h1
      obtain ⟨he, hw⟩ := h1
      have he : enabled = true := by simpa using he
      by_cases hc : c.endCause = .none
      · rw [if_neg (by simp [hc])]
        refine ⟨?_, ?_, ?_⟩
        · split <;> (try split) <;> simp [he, hw]
        · split <;> (try split) <;> simp [hc]
        · split
          · rename_i e t hx ht
            simp [he, hc, hx, ht, eq_comm]
          · rename_i h
            simp only [reduceCtorEq, he, hc, true_and, false_iff, not_exists, not_and]
            exact fun a ha hb => h a a ha hb
      · rw [if_pos (by simp [hc])]
        simp [he, hw, hc]

/-! ### ATTN (R158) -/

/-- Settles O59: `attn` looks for a kind of either sort. -/
theorem attnFollowsTheMask : Obligations.AttnFollowsTheMask := by
  intro s
  have all : ∀ k : NoticeKind, k ∈ allNotices := by intro k; cases k <;> decide
  unfold State.attn State.pendingNotice
  simp [all, exists_or, and_assoc]

end Sys2Proof.Machine
end

section
/-! PROOF. Journal records and headers are read back from their own bytes (12.3, R144, R153, R181). -/

namespace Sys2Proof.Machine

open Sys2Proof.Safety

/-! ### A record's bytes -/

theorem JournalRecord.length_content (r : JournalRecord) : r.content.length + 4 = r.size := by
  cases r with
  | evict x => rfl
  | history r => cases hd : r.debt <;> cases hu : r.doubt <;>
      simp [JournalRecord.content, JournalRecord.size, hd, hu, partBytes, debtPart, doubtPart]

theorem JournalRecord.length_bytes (r : JournalRecord) : r.bytes.length = r.size := by
  simp [JournalRecord.bytes, ← r.length_content]

theorem JournalRecord.lengthFits_size (r : JournalRecord) : lengthFits r.kindByte r.size = true := by
  cases r with
  | evict x => rfl
  | history r => cases hd : r.debt <;> cases hu : r.doubt <;>
      simp [JournalRecord.size, JournalRecord.kindByte, hd, hu, lengthFits]

theorem JournalRecord.size_bounds (r : JournalRecord) : 12 ≤ r.size ∧ r.size ≤ 44 := by
  cases r with
  | evict x => exact ⟨Nat.le_refl 12, Nat.le_of_ble_eq_true rfl⟩
  | history r => unfold JournalRecord.size; dsimp only; split <;> split <;> omega

/-- R153: a record's own bytes pass the length and the check, and what is left is to read its fields. -/
theorem readRecord_bytes (r : JournalRecord) (rest : List Byte) :
    readRecord (r.bytes ++ rest) =
      if r.kindByte = 0x02#8 then some (.evict (BitVec.ofNat 64 (beNat (slice r.bytes 4 8))), r.size)
      else (readParts r.size r.bytes).map fun parts => (.history (historyOf r.bytes parts), r.size) := by
  obtain ⟨hlo, hhi⟩ := r.size_bounds
  have hkind : byteAt (r.bytes ++ rest) 0 = r.kindByte := rfl
  have hlen : (byteAt (r.bytes ++ rest) 1).toNat = r.size := by
    change (BitVec.ofNat 8 r.size).toNat = r.size
    rw [BitVec.toNat_ofNat, Nat.mod_eq_of_lt (by omega)]
  have htake : (r.bytes ++ rest).take r.size = r.bytes := by
    rw [← r.length_bytes]; exact List.take_left
  have hcheck : crc8 (r.bytes.take 2 ++ r.bytes.drop 3) = byteAt r.bytes 2 := rfl
  have hroom : ((r.bytes ++ rest).length < 4 || !lengthFits r.kindByte r.size || decide ((r.bytes ++ rest).length < r.size)) ≠ true := by
    simp [r.lengthFits_size, r.length_bytes]; omega
  unfold readRecord
  simp only [hkind, hlen, htake]
  rw [if_neg hroom, if_neg (by simpa using hcheck)]

/-! ### A HISTORY record's fields -/

theorem verdictOfCode_code (v : Verdict) : verdictOfCode v.code = v := by cases v <;> rfl

theorem stateBits (a b c : Bool) (v : Verdict) :
    let x := BitVec.ofNat 8 (boolNat a + 2 * boolNat b + 4 * boolNat c + 16 * v.code)
    x.getLsbD 0 = a ∧ x.getLsbD 1 = b ∧ x.getLsbD 2 = c ∧ x.toNat / 16 % 8 = v.code := by
  cases a <;> cases b <;> cases c <;> cases v <;> decide

/-- 12.3: the state byte's bits and its verdict are read back. -/
theorem HistoryRecord.stateByte_read (r : HistoryRecord) :
    r.stateByte.getLsbD 0 = r.marks.spent ∧ r.stateByte.getLsbD 1 = r.marks.refill ∧ r.stateByte.getLsbD 2 = r.retired ∧
      r.stateByte.toNat / 16 % 8 = r.lastVerdict.code := stateBits _ _ _ _

theorem readDebtPart_debtPart {d : Nat × Nat} (h1 : d.1 < 65536) (h2 : d.2 < 100000000000000) :
    readDebtPart (debtPart d) = some d := by
  have hq : slice (debtPart d) 1 2 = beBytes 2 d.1 := by
    unfold debtPart; rw [List.append_assoc, List.append_assoc]; exact slice_field _ _ _ _ _ rfl rfl
  have hr : slice (debtPart d) 3 7 = beBytes 7 d.2 := by
    unfold debtPart; rw [List.append_assoc]; exact slice_field _ _ _ _ _ rfl rfl
  unfold readDebtPart
  rw [hq, hr, beNat_beBytes_of_lt (by omega), beNat_beBytes_of_lt (by omega)]
  exact if_pos h2

theorem readDoubtPart_doubtPart {d : Doubt} (h1 : d.base < 65536) (h2 : d.amount < 65536) :
    readDoubtPart (doubtPart d) = d := by
  have hb : slice (doubtPart d) 1 2 = beBytes 2 d.base := by
    unfold doubtPart; rw [List.append_assoc, List.append_assoc]; exact slice_field _ _ _ _ _ rfl rfl
  have ha : slice (doubtPart d) 3 2 = beBytes 2 d.amount := by
    unfold doubtPart; rw [List.append_assoc]; exact slice_field _ _ _ _ _ rfl rfl
  unfold readDoubtPart
  rw [hb, ha, beNat_beBytes_of_lt (by omega), beNat_beBytes_of_lt (by omega)]

/-- A HISTORY record's bytes before its optional parts. -/
def HistoryRecord.head (r : HistoryRecord) : List Byte :=
  (JournalRecord.history r).bytes.take 4 ++ (beBytes 8 r.serial.toNat ++ beBytes 2 r.classCode.toNat ++
    beBytes 2 r.highWater ++ beBytes 4 r.lastSeen)

theorem HistoryRecord.length_head (r : HistoryRecord) : r.head.length = 20 := rfl

theorem HistoryRecord.bytes_eq (r : HistoryRecord) :
    (JournalRecord.history r).bytes = r.head ++ (partBytes debtPart r.debt ++ partBytes doubtPart r.doubt) := by
  simp [JournalRecord.bytes, HistoryRecord.head, JournalRecord.content]

/-- R181: the optional parts are read back, whichever of them the record has. -/
theorem readParts_bytes {r : HistoryRecord} (hd : ∀ d, r.debt = some d → d.1 < 65536 ∧ d.2 < 100000000000000)
    (hu : ∀ d, r.doubt = some d → d.base < 65536 ∧ d.amount < 65536) :
    readParts (JournalRecord.history r).size (JournalRecord.history r).bytes = some (r.debt, r.doubt) := by
  have first : ∀ p q : List Byte, p.length = 12 → slice (r.head ++ (p ++ q)) 20 12 = p := fun p q h =>
    slice_field _ _ _ _ _ r.length_head h
  have second : ∀ p q : List Byte, p.length = 12 → q.length = 12 → slice (r.head ++ (p ++ q)) 32 12 = q := fun p q hp hq => by
    rw [← List.append_assoc]; exact slice_last _ _ _ _ (by rw [List.length_append, r.length_head, hp]) hq
  rw [r.bytes_eq]
  unfold readParts
  cases hdebt : r.debt with
  | none =>
    cases hdoubt : r.doubt with
    | none => rw [if_pos (by simp [JournalRecord.size, hdebt, hdoubt])]
    | some u =>
      obtain ⟨h1, h2⟩ := hu u hdoubt
      have hs : slice (r.head ++ (partBytes debtPart none ++ partBytes doubtPart (some u))) 20 12 = doubtPart u := by
        simpa [partBytes] using first (doubtPart u) [] rfl
      have hsize : (JournalRecord.history r).size = 32 := by simp [JournalRecord.size, hdebt, hdoubt]
      have hkind : byteAt (doubtPart u) 0 = 0x02#8 := rfl
      simp [hsize, hs, hkind, readDoubtPart_doubtPart h1 h2]
  | some d =>
    obtain ⟨h1, h2⟩ := hd d hdebt
    have hkind : byteAt (debtPart d) 0 = 0x01#8 := rfl
    cases hdoubt : r.doubt with
    | none =>
      have hs : slice (r.head ++ (partBytes debtPart (some d) ++ partBytes doubtPart none)) 20 12 = debtPart d :=
        first (debtPart d) [] rfl
      have hsize : (JournalRecord.history r).size = 32 := by simp [JournalRecord.size, hdebt, hdoubt]
      simp [hsize, hs, hkind, readDebtPart_debtPart h1 h2]
    | some u =>
      obtain ⟨h3, h4⟩ := hu u hdoubt
      have hs : slice (r.head ++ (partBytes debtPart (some d) ++ partBytes doubtPart (some u))) 20 12 = debtPart d :=
        first (debtPart d) (doubtPart u) rfl
      have hs' : slice (r.head ++ (partBytes debtPart (some d) ++ partBytes doubtPart (some u))) 32 12 = doubtPart u :=
        second (debtPart d) (doubtPart u) rfl rfl
      have hsize : (JournalRecord.history r).size = 44 := by simp [JournalRecord.size, hdebt, hdoubt]
      have hkind' : byteAt (doubtPart u) 0 = 0x02#8 := rfl
      simp [hsize, hs, hs', hkind, hkind', readDebtPart_debtPart h1 h2, readDoubtPart_doubtPart h3 h4]

/-- 12.3: the fields before the parts are read back. -/
theorem historyOf_bytes {r : HistoryRecord} (hw : r.highWater < 65536) (hs : r.lastSeen < 2 ^ 32) :
    historyOf (JournalRecord.history r).bytes (r.debt, r.doubt) = r := by
  obtain ⟨hspent, hrefill, hretired, hverdict⟩ := r.stateByte_read
  obtain ⟨tail, htail⟩ : ∃ t, (JournalRecord.history r).bytes = (JournalRecord.history r).bytes.take 4 ++
      (beBytes 8 r.serial.toNat ++ (beBytes 2 r.classCode.toNat ++ (beBytes 2 r.highWater ++ (beBytes 4 r.lastSeen ++ t)))) :=
    ⟨_, by rw [r.bytes_eq]; simp only [HistoryRecord.head, List.append_assoc]; rfl⟩
  have hstate : byteAt (JournalRecord.history r).bytes 3 = r.stateByte := rfl
  have hx : slice (JournalRecord.history r).bytes 4 8 = beBytes 8 r.serial.toNat := by
    rw [htail]; exact slice_field _ _ _ _ _ rfl rfl
  have hc : slice (JournalRecord.history r).bytes 12 2 = beBytes 2 r.classCode.toNat := by
    rw [htail, ← List.append_assoc]; exact slice_field _ _ _ _ _ rfl rfl
  have hh : slice (JournalRecord.history r).bytes 14 2 = beBytes 2 r.highWater := by
    rw [htail, ← List.append_assoc, ← List.append_assoc]; exact slice_field _ _ _ _ _ rfl rfl
  have hl : slice (JournalRecord.history r).bytes 16 4 = beBytes 4 r.lastSeen := by
    rw [htail, ← List.append_assoc, ← List.append_assoc, ← List.append_assoc]; exact slice_field _ _ _ _ _ rfl rfl
  unfold historyOf
  rw [hstate, hx, hc, hh, hl, hspent, hrefill, hretired, hverdict, verdictOfCode_code, ofNat_beNat_beBytes (by decide),
    ofNat_beNat_beBytes (by decide), beNat_beBytes_of_lt (by omega), beNat_beBytes_of_lt (by omega)]

/-- A record whose fields fit their sizes is read back from its own bytes, whatever follows them. -/
theorem readRecord_of_fits {r : JournalRecord} (h : recordFits r) (rest : List Byte) :
    readRecord (r.bytes ++ rest) = some (r, r.size) := by
  rw [readRecord_bytes]
  cases r with
  | evict x =>
    have hx : slice (JournalRecord.evict x).bytes 4 8 = beBytes 8 x.toNat := by
      exact slice_last ((JournalRecord.evict x).bytes.take 4) (beBytes 8 x.toNat) _ _ rfl rfl
    rw [if_pos (show (JournalRecord.evict x).kindByte = 0x02#8 from rfl), hx, ofNat_beNat_beBytes (by decide)]
  | history r =>
    obtain ⟨hw, hs, hd, hu⟩ := h
    have hkind : ¬(JournalRecord.history r).kindByte = 0x02#8 := by simp [JournalRecord.kindByte]
    rw [if_neg hkind, readParts_bytes hd hu, Option.map_some,
      historyOf_bytes hw hs]

/-! ### Headers -/

theorem length_headerBytesOf (n : BitVec 32) : (headerBytesOf n).length = 16 := rfl

/-- R181: a header is read back from its own bytes. -/
theorem readHeader_headerBytesOf (n : BitVec 32) : readHeader (headerBytesOf n) = some n.toNat := by
  have hbytes : headerBytesOf n = beBytes 4 validMarker ++ (beBytes 4 n.toNat ++ (beBytes 2 1 ++
      (beBytes 2 Config.recordArea ++ beBytes 4 (crc32 (headerHead n)).toNat))) := by
    simp only [headerBytesOf, headerHead, List.append_assoc]
  have hmarker : slice (headerBytesOf n) 0 4 = beBytes 4 validMarker := rfl
  have hseq : slice (headerBytesOf n) 4 4 = beBytes 4 n.toNat := rfl
  have hversion : slice (headerBytesOf n) 8 2 = beBytes 2 1 := rfl
  have harea : slice (headerBytesOf n) 10 2 = beBytes 2 Config.recordArea := rfl
  have hcheck : slice (headerBytesOf n) 12 4 = beBytes 4 (crc32 (headerHead n)).toNat := rfl
  have hhead : slice (headerBytesOf n) 0 12 = headerHead n := rfl
  have hcrc := (crc32 (headerHead n)).isLt
  unfold readHeader
  rw [hmarker, hseq, hversion, harea, hcheck, hhead, beNat_beBytes_of_lt (by decide), beNat_beBytes_of_lt (by decide),
    beNat_beBytes_of_lt (by decide), beNat_beBytes_of_lt (by omega), beNat_beBytes_of_lt n.isLt, if_pos (by simp)]

/-! ### The statement -/

/-- Settles O36: a record's fields and a header's are each read where they were written. -/
theorem recordsAndHeadersReadBack : Obligations.RecordsAndHeadersReadBack :=
  ⟨⟨fun _ rest hw hs hd hu => readRecord_of_fits (r := .history _) ⟨hw, hs, hd, hu⟩ rest,
    fun x rest => readRecord_of_fits (r := .evict x) trivial rest⟩,
    fun n => ⟨length_headerBytesOf n, readHeader_headerBytesOf n⟩⟩

end Sys2Proof.Machine
end

section
/-! PROOF. The controller link (R164 to R170): the receiver byte by byte, the end of a reply, and the judgment of an arrival. -/

namespace Sys2Proof.Machine

open Sys2Proof.Safety

variable {s : State}

/-! ### The arrival of a request -/

theorem exec_requestOf (k : RequestKind) (tag claimed : Byte) (p : List Byte) (s : State) :
    exec (requestOf k tag claimed p) s = .next (s.deliver k.code tag claimed p) := by
  cases k <;> rfl

theorem kindOfCode_code (k : RequestKind) : kindOfCode k.code = some k := by cases k <;> decide

theorem refuse_eq (s : State) (kind tag : Byte) (r : ResultCode) : s.refuse kind tag r = refusing s kind tag r := by
  unfold State.refuse refusing
  rw [State.placeReply_eq]; rfl

theorem deliver_of_error {kind tag claimed : Byte} {p : List Byte} {r : ResultCode}
    (h : s.judgeArrival kind tag claimed p = .error r) : s.deliver kind tag claimed p = refusing s kind tag r := by
  unfold State.deliver
  rw [h, ← refuse_eq]

theorem queue_has_room (h : s.dispatcher.queue.length < 8) : ¬Config.queueSize ≤ s.dispatcher.queue.length := Nat.not_le.2 h

theorem judgeArrival_busy (kind tag claimed : Byte) (p : List Byte) (h : 8 ≤ s.dispatcher.queue.length) :
    s.judgeArrival kind tag claimed p = .error .busy := by
  unfold State.judgeArrival
  exact if_pos h

theorem judgeArrival_duplicate (kind claimed : Byte) {tag : Byte} (p : List Byte) (hl : s.dispatcher.queue.length < 8)
    (h : ∃ e ∈ s.dispatcher.queue, e.tag = tag) : s.judgeArrival kind tag claimed p = .error .duplicateTag := by
  unfold State.judgeArrival
  rw [if_neg (queue_has_room hl), if_pos (by simpa using h)]

theorem judgeArrival_unknown {kind tag : Byte} (claimed : Byte) (p : List Byte) (hl : s.dispatcher.queue.length < 8)
    (ht : ∀ e ∈ s.dispatcher.queue, e.tag ≠ tag) (h : ∀ k : RequestKind, k.code ≠ kind) :
    s.judgeArrival kind tag claimed p = .error .unknownKind := by
  have hk : kindOfCode kind = none := List.find?_eq_none.2 fun k _ => by simpa using h k
  unfold State.judgeArrival
  rw [if_neg (queue_has_room hl), if_neg (by simpa using ht), hk]

theorem judgeArrival_kindRefusal {k : RequestKind} {tag claimed : Byte} {p : List Byte} {r : ResultCode}
    (hl : s.dispatcher.queue.length < 8) (ht : ∀ e ∈ s.dispatcher.queue, e.tag ≠ tag)
    (h : s.kindRefusal k (effectiveLevel s.dispatcher claimed) p = some r) :
    s.judgeArrival k.code tag claimed p = .error r := by
  unfold State.judgeArrival
  rw [if_neg (queue_has_room hl), if_neg (by simpa using ht), kindOfCode_code]
  simp only [h]

/-- Settles O40: one lemma for each step of R167, and R170's formula. -/
theorem arrivalsAreJudgedInOrder : Obligations.ArrivalsAreJudgedInOrder := by
  refine ⟨fun s k tag claimed p => ⟨fun hq => ?_, fun hl => ⟨fun ht => ?_, fun ht => ⟨fun hv => ?_, fun hv =>
    ⟨fun hs h1 h2 => ?_, fun n hs hf hn => ?_⟩⟩⟩⟩, fun d claimed => ⟨rfl, ?_, ?_⟩, fun d service => ?_⟩
  · rw [exec_requestOf, deliver_of_error (judgeArrival_busy _ _ _ _ hq)]
  · rw [exec_requestOf, deliver_of_error (judgeArrival_duplicate _ _ _ hl ht)]
  · rw [exec_requestOf, deliver_of_error (judgeArrival_kindRefusal hl ht (if_pos hv))]
  · have hr : s.kindRefusal k (effectiveLevel s.dispatcher claimed) p = some .starting := by
      unfold State.kindRefusal
      rw [if_neg (Nat.not_lt.2 hv), if_pos (by simp [hs, h1, h2])]
    rw [exec_requestOf, deliver_of_error (judgeArrival_kindRefusal hl ht hr)]
  · have open' : ¬(s.supply.state = .starting && k != .ident && k != .status) = true := by
      rcases hs with h | h | h <;> simp [h]
    have hr : s.kindRefusal k (effectiveLevel s.dispatcher claimed) p = some .badLength := by
      unfold State.kindRefusal
      rw [if_neg (Nat.not_lt.2 hv), if_neg open', hf]
      exact if_neg hn
    rw [exec_requestOf, deliver_of_error (judgeArrival_kindRefusal hl ht hr)]
  · unfold effectiveLevel; omega
  · unfold effectiveLevel; omega
  · refine ⟨fun h k => ?_, fun h k => ?_, fun h k => ?_, fun h k => ?_⟩ <;>
      simp [effectiveLevel, h, k, strapFloorOf]

/-! ### The receiver -/

theorem setReceiver_eq (s : State) (r : Receiver) : s.setReceiver r = { s with link := { s.link with receiver := r } } := rfl

theorem setReceiver_setReceiver (s : State) (q r : Receiver) : (s.setReceiver q).setReceiver r = s.setReceiver r := rfl

theorem receive_hunt (h : s.link.receiver = .hunt) (b : Byte) : s.receive b = s.setReceiver (huntByte b) := by
  unfold State.receive; rw [h]

theorem receive_length (h : s.link.receiver = .length) (b : Byte) : s.receive b = s.setReceiver (lengthByte b) := by
  unfold State.receive; rw [h]

theorem receive_body {n : Nat} {held : List Byte} (h : s.link.receiver = .body n held) (b : Byte) :
    s.receive b = s.setReceiver (bodyByte n held b) := by
  unfold State.receive; rw [h]

theorem receive_check_first {body : List Byte} (h : s.link.receiver = .check body []) (b : Byte) :
    s.receive b = s.setReceiver (.check body [b]) := by
  unfold State.receive; rw [h]

theorem receive_check_second {body : List Byte} {high : Byte} (h : s.link.receiver = .check body [high]) (b : Byte) :
    s.receive b = (s.setReceiver .hunt).judgeFrame body (high ++ b) := by
  unfold State.receive; rw [h]

theorem judgeFrame_dropped {body : List Byte} {crc : BitVec 16} (h : crc16 body ≠ crc) : s.judgeFrame body crc = s := by
  unfold State.judgeFrame
  exact if_neg h

theorem judgeFrame_delivered {kind tag claimed : Byte} {p : List Byte} {crc : BitVec 16}
    (h : crc16 (kind :: tag :: claimed :: p) = crc) :
    s.judgeFrame (kind :: tag :: claimed :: p) crc = s.deliver kind tag claimed p := by
  unfold State.judgeFrame
  exact if_pos h

/-- Settles O37: one lemma for each state of the receiver, and the two judgments of a frame. -/
theorem receiverTakesEachByteAndDropsBadFrames : Obligations.ReceiverTakesEachByteAndDropsBadFrames := by
  refine ⟨fun s b => ⟨fun h => ?_, fun h => ?_, fun n held h => ?_, fun body h => ?_, fun body high h hc => ?_,
    fun k tag claimed p high h hc => ?_⟩, fun s => ⟨rfl, rfl, fun body crc hc => ?_⟩⟩
  · exact congrArg Host.Outcome.next (receive_hunt h b)
  · exact congrArg Host.Outcome.next (receive_length h b)
  · exact congrArg Host.Outcome.next (receive_body h b)
  · exact congrArg Host.Outcome.next (receive_check_first h b)
  · exact congrArg Host.Outcome.next ((receive_check_second h b).trans (judgeFrame_dropped hc))
  · rw [exec_requestOf]
    exact congrArg Host.Outcome.next ((receive_check_second h b).trans (judgeFrame_delivered hc))
  · exact congrArg Host.Outcome.next (judgeFrame_dropped hc)

/-- The body's bytes gather until the LEN is reached (R165). -/
theorem foldl_receive_body {n : Nat} (bs : List Byte) : ∀ (s : State) (held : List Byte), s.link.receiver = .body n held →
    held.length + bs.length = n → bs ≠ [] → bs.foldl State.receive s = s.setReceiver (.check (held ++ bs) []) := by
  induction bs with
  | nil => exact fun _ _ _ _ h => absurd rfl h
  | cons b bs ih =>
    intro s held hr hn _
    rw [List.foldl_cons, receive_body hr]
    rw [List.length_cons] at hn
    cases bs with
    | nil =>
      rw [List.length_nil] at hn
      rw [bodyByte, if_pos (by omega)]; rfl
    | cons c bs =>
      rw [List.length_cons] at hn
      rw [bodyByte, if_neg (by omega)]
      rw [ih _ (held ++ [b]) rfl (by simp; omega) (by simp), List.append_assoc]
      rfl

/-- A check's two bytes, high byte first, spell it (R166). -/
theorem beBytes_two (x : BitVec 16) : ∃ high low : Byte, beBytes 2 x.toNat = [high, low] ∧ high ++ low = x := by
  refine ⟨BitVec.ofNat 8 (x.toNat / 256), BitVec.ofNat 8 x.toNat, by simp [beBytes], ?_⟩
  apply BitVec.eq_of_toNat_eq
  have hx := x.isLt
  rw [BitVec.toNat_append, BitVec.toNat_ofNat, BitVec.toNat_ofNat, ← Nat.shiftLeft_add_eq_or_of_lt (Nat.mod_lt _ (by decide)), Nat.shiftLeft_eq]
  omega

/-- Settles O38: SYNC, LEN, the body by induction, and the two bytes of the check. -/
theorem receivedFrameIsDelivered : Obligations.ReceivedFrameIsDelivered := by
  intro s k tag claimed p hr hp
  obtain ⟨high, low, hb, hc⟩ := beBytes_two (crc16 (k.code :: tag :: claimed :: p))
  have hlen : (BitVec.ofNat 8 (p.length + 3)).toNat = p.length + 3 := by
    rw [BitVec.toNat_ofNat, Nat.mod_eq_of_lt (by omega)]
  have hl : lengthByte (BitVec.ofNat 8 (p.length + 3)) = .body (p.length + 3) [] := by
    unfold lengthByte
    rw [hlen, if_pos (by omega)]
  have hunt : s.setReceiver .hunt = s := by
    rw [setReceiver_eq, ← hr]
  have body : ((k.code :: tag :: claimed :: p).foldl State.receive (s.setReceiver (.body (p.length + 3) []))) =
      s.setReceiver (.check (k.code :: tag :: claimed :: p) []) :=
    foldl_receive_body _ _ [] rfl (by simp) (by simp)
  rw [exec_requestOf, hb, List.foldl_append, List.foldl_append]
  simp only [List.foldl_cons (l := [_]), List.foldl_cons (l := []), List.foldl_nil]
  rw [receive_hunt hr, receive_length (s := s.setReceiver (huntByte 0xC3#8)) rfl, hl, setReceiver_setReceiver, body,
    receive_check_first (body := k.code :: tag :: claimed :: p) (s := s.setReceiver _) rfl, setReceiver_setReceiver,
    receive_check_second (body := k.code :: tag :: claimed :: p) (s := s.setReceiver _) rfl, setReceiver_setReceiver, hunt,
    judgeFrame_delivered hc.symm]

/-! ### The end of a reply -/

theorem leaveQueue_eq (s : State) (r : Reply) : s.leaveQueue r = { s with
    dispatcher := { s.dispatcher with
      queue := if r.queued = true then s.dispatcher.queue.filter (fun e => e.tag ≠ r.tag) else s.dispatcher.queue } } := by
  have same : (fun e : QueueEntry => e.tag != r.tag) = fun e => decide (e.tag ≠ r.tag) := by
    funext e; by_cases h : e.tag = r.tag <;> simp [h]
  unfold State.leaveQueue
  split
  · rw [State.modDispatcher, same]
  · rfl

theorem changeRate_eq (s : State) (rate : Option Nat) : s.changeRate rate = { s with link := { s.link with
    rate := rate.getD s.link.rate
    receiver := if rate.getD s.link.rate = s.link.rate then s.link.receiver else .hunt } } := by
  unfold State.changeRate
  cases rate with
  | none => simp
  | some v =>
    dsimp only [Option.getD_some]
    by_cases h : v = s.link.rate
    · rw [if_pos h, if_pos h, h]
    · rw [if_neg h, if_neg h]; rfl

theorem startNextReply_eq (s : State) : s.startNextReply = { s with link := { s.link with
    sending := s.link.transmit.head?.map fun q => (q, s.link.rate), transmit := s.link.transmit.tail } } := by
  obtain ⟨⟨_, _, _, _ | _⟩, _⟩ := s <;> rfl

/-- Settles O39: the three parts of the end of a reply. -/
theorem replySentFreesItsPlace : Obligations.ReplySentFreesItsPlace := by
  intro s r rate h
  have hf : s.replyFinished = ((s.leaveQueue r).changeRate r.newRate).startNextReply := by
    unfold State.replyFinished; rw [h]
  change Host.Outcome.next s.replyFinished = _
  rw [hf, leaveQueue_eq, changeRate_eq, startNextReply_eq]

end Sys2Proof.Machine
end

section
/-! PROOF. The requests that answer at once (chapters 9 to 11): refusals of a payload, queries, acknowledgements, settings. -/

namespace Sys2Proof.Machine

open Sys2Proof.Safety

variable {s : State}

/-! ### A request that completes at once -/

/-- A taken request whose owner changes the state to `t`, nothing of the queue or the line, and completes it. -/
theorem exec_answers {k : RequestKind} {tag claimed : Byte} {p : List Byte} {t : State} {r : ResultCode} {reply : List Byte}
    (h : admits s k tag claimed p)
    (ht : (holding s (entryOf s k tag claimed p .owner)).serve (entryOf s k tag claimed p .owner) =
      (holding t (entryOf s k tag claimed p .owner)).finish (entryOf s k tag claimed p .owner) r reply)
    (hq : t.dispatcher.queue = s.dispatcher.queue) (hl : t.link = s.link) :
    exec (requestOf k tag claimed p) s = .next (answered t (entryOf s k tag claimed p .owner) r reply) := by
  have fresh : ∀ x ∈ t.dispatcher.queue, x.tag ≠ (entryOf s k tag claimed p .owner).tag := by rw [hq]; exact h.2.1
  rw [exec_requestOf, State.deliver_served h (ht.trans (State.finish_holding fresh r reply))
    (.inr ⟨_, (placing_link _ _).trans (congrArg (Link.place · _) hl)⟩)]

/-- A taken request whose owner completes it and changes nothing. -/
theorem exec_refuses {k : RequestKind} {tag claimed : Byte} {p : List Byte} {r : ResultCode} {reply : List Byte}
    (h : admits s k tag claimed p)
    (ht : (holding s (entryOf s k tag claimed p .owner)).serve (entryOf s k tag claimed p .owner) =
      (holding s (entryOf s k tag claimed p .owner)).finish (entryOf s k tag claimed p .owner) r reply) :
    exec (requestOf k tag claimed p) s = .next (answered s (entryOf s k tag claimed p .owner) r reply) :=
  exec_answers h ht rfl rfl

/-- A taken request whose owner changes the state to `t`, nothing of the queue or the line, and lets it wait. -/
theorem exec_waits {k : RequestKind} {tag claimed : Byte} {p : List Byte} {t : State} {w : Wait} (h : admits s k tag claimed p)
    (ht : (holding s (entryOf s k tag claimed p .owner)).serve (entryOf s k tag claimed p .owner) =
      (holding t (entryOf s k tag claimed p .owner)).setWait tag w)
    (hq : t.dispatcher.queue = s.dispatcher.queue) (hl : t.link = s.link) :
    exec (requestOf k tag claimed p) s = .next (holding t (entryOf s k tag claimed p w)) := by
  have fresh : ∀ x ∈ t.dispatcher.queue, x.tag ≠ (entryOf s k tag claimed p .owner).tag := by rw [hq]; exact h.2.1
  rw [exec_requestOf, State.deliver_served h (ht.trans (State.setWait_holding fresh w)) (.inl hl)]; rfl

/-! ### The payloads -/

theorem bayOfByte_bay (b : Bay) : bayOfByte (BitVec.ofNat 8 b.val) = some b := by revert b; decide

theorem bayOfByte_above {n : Byte} (h : 11 < n.toNat) : bayOfByte n = none := dif_neg (by omega)

theorem forBay_bay {e : QueueEntry} {b : Bay} {rest : List Byte} (h : e.payload = BitVec.ofNat 8 b.val :: rest)
    (f : Bay → State) : s.forBay e f = f b := by
  have hb : byteAt e.payload 0 = BitVec.ofNat 8 b.val := by rw [h]; rfl
  unfold State.forBay
  rw [hb, bayOfByte_bay]

theorem forBay_above {e : QueueEntry} {n : Byte} {rest : List Byte} (h : e.payload = n :: rest) (hn : 11 < n.toNat)
    (f : Bay → State) : s.forBay e f = s.finish e .badValue [] := by
  have hb : byteAt e.payload 0 = n := by rw [h]; rfl
  unfold State.forBay
  rw [hb, bayOfByte_above hn]

theorem readList_none {size lo hi : Nat} {n : Byte} {rest : List Byte}
    (h : n.toNat < lo ∨ hi < n.toNat ∨ rest.length ≠ size * n.toNat) : readList size lo hi (n :: rest) = none := by
  refine if_neg ?_
  simp only [Bool.and_eq_true, decide_eq_true_eq]
  omega

theorem readList_some {size lo hi : Nat} {n : Byte} {rest : List Byte} (hlo : lo ≤ n.toNat) (hhi : n.toNat ≤ hi)
    (hr : rest.length = size * n.toNat) : readList size lo hi (n :: rest) = some (elements size n.toNat rest) := by
  refine if_pos ?_
  simp [hlo, hhi, hr]

/-- The element that stands behind `i` others of a list. -/
theorem mem_elements {size n : Nat} {before item after : List Byte} (i : Nat) (hb : before.length = size * i)
    (hi : item.length = size) (hn : i < n) : item ∈ elements size n (before ++ item ++ after) := by
  induction i generalizing n before with
  | zero =>
    obtain ⟨m, rfl⟩ := Nat.exists_eq_add_one.2 hn
    obtain rfl : before = [] := List.eq_nil_of_length_eq_zero (by simpa using hb)
    rw [elements, List.nil_append, ← hi, List.take_left]
    exact List.mem_cons_self ..
  | succ i ih =>
    obtain ⟨m, rfl⟩ := Nat.exists_eq_add_one.2 (Nat.zero_lt_of_lt hn)
    rw [Nat.mul_succ] at hb
    have hd : (before.drop size).length = size * i := by rw [List.length_drop]; omega
    rw [elements, List.append_assoc, List.drop_append_of_le_length (by rw [hb]; omega)]
    have h := ih (n := m) hd (by omega)
    rw [List.append_assoc] at h
    exact List.mem_cons_of_mem _ h

theorem allSome_none {α : Type} {l : List (Option α)} (h : none ∈ l) : allSome l = none := by
  induction l with
  | nil => exact nomatch h
  | cons x l ih =>
    cases x with
    | none => rfl
    | some a => rw [allSome, ih (by simpa using h)]; rfl

theorem allSome_map_none {α : Type} {f : List Byte → Option α} {items : List (List Byte)} {x : List Byte} (hx : x ∈ items)
    (hf : f x = none) : allSome (items.map f) = none := allSome_none (List.mem_map.2 ⟨x, hx, hf⟩)

/-- A two-byte field spells its number. -/
theorem beNat_field (x : BitVec 16) : beNat (beBytes 2 x.toNat) = x.toNat := beNat_beBytes_of_lt (n := 2) x.isLt

/-! ### Elements that are refused (R66, R113, R87, R161) -/

theorem withBay_bad {item : List Byte} (h : badItem .usage item) : withBay (readUsageEntry item) = none := by
  obtain ⟨b, rest, rfl, hb⟩ := h
  have : (readUsageEntry (b :: rest)).bay = b := rfl
  unfold withBay
  rw [this, bayOfByte_above hb]; rfl

theorem readPair_bad {item : List Byte} (h : badItem .levelSense item) : readPair item = none := by
  obtain ⟨b, r, rfl, h⟩ := h
  have h0 : byteAt [b, r] 0 = b := rfl
  have h1 : byteAt [b, r] 1 = r := rfl
  unfold readPair
  rw [h0, h1]
  rcases h with h | h
  · rw [bayOfByte_above h]
  · have : readingOfByte r = none := by
      unfold readingOfByte
      rw [if_neg, if_neg, if_neg] <;> (rintro rfl; exact absurd h (by decide))
    rw [this]; cases bayOfByte b <;> rfl

theorem readPrinterBand_bad {item : List Byte} (h : badItem .setBands item) : readPrinterBand item = none := by
  obtain ⟨low, high, m, rfl, h⟩ := h
  have hm : byteAt (beBytes 2 low.toNat ++ beBytes 2 high.toNat ++ [m]) 4 = m := rfl
  have hl : beNat (slice (beBytes 2 low.toNat ++ beBytes 2 high.toNat ++ [m]) 0 2) = low.toNat :=
    beNat_field low
  have hh : beNat (slice (beBytes 2 low.toNat ++ beBytes 2 high.toNat ++ [m]) 2 2) = high.toNat :=
    beNat_field high
  unfold readPrinterBand
  rw [hm, hl, hh]
  rcases h with h | h
  · have : modeOfByte m = none := by
      unfold modeOfByte
      rw [if_neg, if_neg, if_neg] <;> (rintro rfl; exact absurd h (by decide))
    rw [this]
  · cases modeOfByte m with
    | none => rfl
    | some k => exact if_neg (by omega)

theorem noticeOfCode_none {c : Nat} (h : c = 0 ∨ 21 < c) : noticeOfCode c = none := by
  refine List.find?_eq_none.2 fun k _ => ?_
  have hk : 0 < k.code ∧ k.code ≤ 21 := by cases k <;> decide
  simp only [decide_eq_true_eq]
  omega

theorem readAckItem_bad {item : List Byte} (h : badItem .ackNotices item) : readAckItem item = none := by
  obtain ⟨code, set, rfl, h⟩ := h
  have hc : byteAt (code :: beBytes 2 set.toNat) 0 = code := rfl
  have hs : beNat (slice (code :: beBytes 2 set.toNat) 1 2) = set.toNat := beNat_field set
  unfold readAckItem
  rw [hc, hs]
  rcases h with rfl | h | h
  · rw [show (0 : Byte).toNat = 0 from rfl, noticeOfCode_none (.inl rfl)]
  · rw [noticeOfCode_none (.inr h)]
  · cases noticeOfCode code.toNat with
    | none => rfl
    | some k => exact if_neg (by omega)

theorem boolOfByte_none {n : Byte} (h : 1 < n.toNat) : boolOfByte n = none := by
  unfold boolOfByte
  rw [if_neg, if_neg] <;> (rintro rfl; exact absurd h (by decide))

/-! ### Owners that refuse -/

theorem listShape_cases {k : RequestKind} {size lo hi : Nat} (h : listShape k = some (size, lo, hi)) :
    (k = .ackNotices ∧ size = 3 ∧ lo = 1 ∧ hi = 21) ∨ (k = .usage ∧ size = 19 ∧ lo = 1 ∧ hi = 8) ∨
      (k = .levelSense ∧ size = 2 ∧ lo = 1 ∧ hi = 12) ∨ (k = .setBands ∧ size = 5 ∧ lo = 0 ∧ hi = 4) := by
  unfold listShape at h
  split at h <;> simp_all

/-- A payload of a list kind that is no list of its shape: its owner completes it with BAD_LENGTH (R167, 12.1). -/
theorem serve_badLength {e : QueueEntry} {size lo hi : Nat} (hk : listShape e.kind = some (size, lo, hi))
    (hp : readList size lo hi e.payload = none) : s.serve e = s.finish e .badLength [] := by
  unfold State.serve
  rcases listShape_cases hk with ⟨hkind, rfl, rfl, rfl⟩ | ⟨hkind, rfl, rfl, rfl⟩ | ⟨hkind, rfl, rfl, rfl⟩ |
    ⟨hkind, rfl, rfl, rfl⟩ <;> rw [hkind]
  · change s.serveAckNotices e = _
    unfold State.serveAckNotices; rw [hp]
  · change s.serveUsage e = _
    unfold State.serveUsage; rw [hp]
  · change s.serveLevelSense e = _
    unfold State.serveLevelSense; rw [hp]
  · change s.serveSetBands e = _
    unfold State.serveSetBands; rw [hp]

/-- A list with one bad element: its owner completes the request with BAD_VALUE. -/
theorem serve_badItem {e : QueueEntry} {size lo hi : Nat} {items : List (List Byte)} {item : List Byte}
    (hk : listShape e.kind = some (size, lo, hi)) (hp : readList size lo hi e.payload = some items) (hi' : item ∈ items)
    (hb : badItem e.kind item) : s.serve e = s.finish e .badValue [] := by
  unfold State.serve
  rcases listShape_cases hk with ⟨hkind, rfl, rfl, rfl⟩ | ⟨hkind, rfl, rfl, rfl⟩ | ⟨hkind, rfl, rfl, rfl⟩ |
    ⟨hkind, rfl, rfl, rfl⟩ <;> rw [hkind] at hb ⊢
  · change s.serveAckNotices e = _
    unfold State.serveAckNotices
    rw [hp]; dsimp only
    rw [allSome_map_none hi' (readAckItem_bad hb)]
  · change s.serveUsage e = _
    unfold State.serveUsage
    rw [hp]; dsimp only
    rw [allSome_map_none (f := fun d => withBay (readUsageEntry d)) hi' (withBay_bad hb)]
  · change s.serveLevelSense e = _
    unfold State.serveLevelSense
    rw [hp]; dsimp only
    rw [allSome_map_none hi' (readPair_bad hb)]
  · change s.serveSetBands e = _
    unfold State.serveSetBands
    rw [hp]; dsimp only
    rw [allSome_map_none hi' (readPrinterBand_bad hb)]

/-- A request of one bay whose bay number is above 11. -/
theorem serve_badBay {e : QueueEntry} {n : Byte} {rest : List Byte}
    (hk : e.kind ∈ [RequestKind.bayQuery, .flush, .release, .bayReset, .rechallenge, .setClass]) (hp : e.payload = n :: rest)
    (hn : 11 < n.toNat) (hf : e.kind = .flush → n ≠ 0xFF#8) : s.serve e = s.finish e .badValue [] := by
  unfold State.serve
  cases hkind : e.kind <;> rw [hkind] at hk <;> try exact absurd hk (by decide)
  case flush =>
    have hb : byteAt e.payload 0 = n := by rw [hp]; rfl
    change s.serveFlush e = _
    unfold State.serveFlush
    rw [hb, if_neg (hf hkind), forBay_above hp hn]
  all_goals exact forBay_above hp hn _

/-- Settles O41: the payload's reading fails for each of the reasons, and its owner refuses then. -/
theorem unknownKindsAndBaysAreRefused : Obligations.UnknownKindsAndBaysAreRefused := by
  refine ⟨fun s kind tag claimed p hk hl ht => ?_, fun s tag claimed => ⟨fun k n rest hk hn hf h => ?_,
    fun k size lo hi hk => ⟨fun h => ?_, fun n rest hn h => ?_, fun i n before item after hb hi' hl hlo hhi hbad h => ?_⟩,
    fun n hn => ⟨fun h => ?_, fun h => ?_⟩⟩⟩
  · exact congrArg Host.Outcome.next (deliver_of_error (judgeArrival_unknown claimed p hl ht hk))
  · exact exec_refuses h (serve_badBay hk rfl hn hf)
  · exact exec_refuses h (serve_badLength hk rfl)
  · exact exec_refuses h (serve_badLength hk (readList_none hn))
  · have pos : 0 < size := by
      cases k <;> simp [listShape] at hk <;> omega
    have hin : i < n.toNat := by
      refine Nat.lt_of_mul_lt_mul_left (a := size) ?_
      simp only [List.length_append] at hl
      omega
    exact exec_refuses h (serve_badItem hk (readList_some hlo hhi hl) (mem_elements i hb hi' hin) hbad)
  · refine exec_refuses h ?_
    change State.serveFaults _ _ = _
    unfold State.serveFaults
    rw [show byteAt (entryOf s .faults tag claimed [n] .owner).payload 0 = n from rfl, boolOfByte_none hn]
  · refine exec_refuses h ?_
    change State.serveHold _ _ = _
    unfold State.serveHold
    rw [show byteAt (entryOf s .hold tag claimed [n] .owner).payload 0 = n from rfl, boolOfByte_none hn]

/-! ### Queries and acknowledgements -/

theorem noticeOfCode_code (k : NoticeKind) : noticeOfCode (BitVec.ofNat 8 k.code).toNat = some k := by cases k <;> decide

theorem readAckItem_of (k : NoticeKind) (set : BitVec 12) :
    readAckItem (BitVec.ofNat 8 k.code :: beBytes 2 set.toNat) = some (k, set) := by
  have hs : beNat (slice (BitVec.ofNat 8 k.code :: beBytes 2 set.toNat) 1 2) = set.toNat :=
    beNat_beBytes_of_lt (n := 2) (Nat.lt_trans set.isLt (by decide))
  unfold readAckItem
  rw [show byteAt (BitVec.ofNat 8 k.code :: beBytes 2 set.toNat) 0 = BitVec.ofNat 8 k.code from rfl, noticeOfCode_code]
  dsimp only
  rw [hs, if_pos set.isLt, BitVec.ofNat_toNat, BitVec.setWidth_eq]

theorem serve_ackNotices {e : QueueEntry} (h : e.kind = .ackNotices) : s.serve e = s.serveAckNotices e := by
  unfold State.serve; rw [h]

/-- Settles O42: each query's owner completes it on the state it was taken in. -/
theorem queriesAnswerAndAcknowledgementsClear : Obligations.QueriesAnswerAndAcknowledgementsClear := by
  refine ⟨fun s tag claimed => ⟨fun h hr => ?_, fun h hr => ?_, fun h => exec_refuses h rfl, fun b h => ?_, fun x h => ?_,
    fun h => exec_refuses h rfl, fun h => exec_refuses h rfl⟩,
    fun s tag claimed => ⟨fun h => exec_answers h rfl rfl rfl, fun k set p hp h => ?_⟩⟩
  · exact exec_refuses h (if_pos hr)
  · exact exec_waits h (if_neg (by rw [show (holding s _).digest = s.digest from rfl, hr]; decide)) rfl rfl
  · exact exec_refuses h (forBay_bay (rest := []) rfl _)
  · have hx : BitVec.ofNat 64 (beNat (beBytes 8 x.toNat)) = x := ofNat_beNat_beBytes (by decide) x
    have hserve : (holding s (entryOf s .historyQuery tag claimed (beBytes 8 x.toNat) .owner)).serve
        (entryOf s .historyQuery tag claimed (beBytes 8 x.toNat) .owner) =
        match s.entry x with
        | some h => (holding s (entryOf s .historyQuery tag claimed (beBytes 8 x.toNat) .owner)).finish
            (entryOf s .historyQuery tag claimed (beBytes 8 x.toNat) .owner) .ok (historyReply h)
        | none => (holding s (entryOf s .historyQuery tag claimed (beBytes 8 x.toNat) .owner)).finish
            (entryOf s .historyQuery tag claimed (beBytes 8 x.toNat) .owner) .noEntry [] := by
      change State.serveHistoryQuery _ _ = _
      unfold State.serveHistoryQuery
      rw [show (entryOf s .historyQuery tag claimed (beBytes 8 x.toNat) .owner).payload = beBytes 8 x.toNat from rfl, hx]
      rfl
    cases he : s.entry x with
    | none => rw [he] at hserve; exact exec_refuses h hserve
    | some y => rw [he] at hserve; exact exec_refuses h hserve
  · subst hp
    refine exec_answers h ?_ rfl rfl
    have items : readList 3 1 21 ([0x01#8, BitVec.ofNat 8 k.code] ++ beBytes 2 set.toNat) =
        some [BitVec.ofNat 8 k.code :: beBytes 2 set.toNat] := rfl
    refine (serve_ackNotices rfl).trans ?_
    unfold State.serveAckNotices
    rw [show (entryOf s .ackNotices tag claimed _ .owner).payload = [0x01#8, BitVec.ofNat 8 k.code] ++ beBytes 2 set.toNat
      from rfl, items]
    have acks : allSome ([BitVec.ofNat 8 k.code :: beBytes 2 set.toNat].map readAckItem) = some [(k, set)] := by
      rw [List.map_cons, readAckItem_of]; rfl
    dsimp only
    rw [acks]
    rfl

/-! ### Settings -/

theorem ofNat_beNat_beBytes_16 (c : BitVec 16) : BitVec.ofNat 16 (beNat (beBytes 2 c.toNat)) = c :=
  ofNat_beNat_beBytes (by decide) c

/-- Completing the request just taken, in full. -/
theorem complete_holding {e : QueueEntry} (h : ∀ x ∈ s.dispatcher.queue, x.tag ≠ e.tag) (c : Completion)
    (ht : c.tag = e.tag) :
    (holding s e).complete c = placing (holding s { e with wait := .replied })
      { kind := replyKind e.kind.code, tag := e.tag, result := c.result, payload := c.payload, queued := true
        newRate := c.newRate } := by
  have hf : (holding s e).dispatcher.queue.find? (fun x => x.tag = c.tag) = some e := by
    rw [ht]
    simp only [holding, List.find?_append]
    rw [List.find?_eq_none.2 (by simpa using h)]
    simp
  unfold State.complete
  rw [hf]; dsimp only
  rw [ht, State.setWait_holding h, State.placeReply_eq]

/-- Settles O50: each owner sets its field and completes the request. -/
theorem settingsRequestsSetTheirField : Obligations.SettingsRequestsSetTheirField := by
  refine fun s tag claimed => ⟨fun b c h => ⟨fun hv => ?_, fun hv => ?_⟩, fun level enables h => ?_, fun rate h => ?_,
    fun level h => ⟨fun hl => ?_, fun hl => ?_⟩⟩
  · refine exec_answers h ((forBay_bay rfl _).trans ((if_pos hv).trans ?_)) rfl rfl
    rw [show slice (entryOf s .setClass tag claimed (BitVec.ofNat 8 b.val :: beBytes 2 c.toNat) .owner).payload 1 2 =
      beBytes 2 c.toNat from rfl, ofNat_beNat_beBytes_16]
    rfl
  · exact exec_refuses h ((forBay_bay rfl _).trans (if_neg hv))
  · refine exec_answers h ?_ rfl rfl
    have hc : BitVec.ofNat 21 (beNat (beBytes 3 enables.toNat)) = enables := ofNat_beNat_beBytes (by decide) enables
    change State.serveSetMask _ _ = _
    unfold State.serveSetMask
    rw [show slice (entryOf s .setMask tag claimed (level :: beBytes 3 enables.toNat) .owner).payload 1 3 =
      beBytes 3 enables.toNat from rfl, hc]
    simp only [Bool.and_eq_true, decide_eq_true_eq]
    rfl
  · have hr : beNat (beBytes 4 rate.toNat) = rate.toNat := beNat_beBytes_of_lt (n := 4) rate.isLt
    have code : replyKind RequestKind.setLink.code = 0xA5#8 := by decide
    have hserve : (holding s (entryOf s .setLink tag claimed (beBytes 4 rate.toNat) .owner)).serve
        (entryOf s .setLink tag claimed (beBytes 4 rate.toNat) .owner) =
        placing (holding s (entryOf s .setLink tag claimed (beBytes 4 rate.toNat) .replied))
          { kind := 0xA5#8, tag := tag, result := if appliedRate rate.toNat = rate.toNat then .ok else .clamped
            payload := beBytes 4 (appliedRate rate.toNat), queued := true, newRate := some (appliedRate rate.toNat) } := by
      change State.serveSetLink _ _ = _
      unfold State.serveSetLink
      rw [show (entryOf s .setLink tag claimed (beBytes 4 rate.toNat) .owner).payload = beBytes 4 rate.toNat from rfl, hr]
      refine (complete_holding (s := s) (e := entryOf s .setLink tag claimed (beBytes 4 rate.toNat) .owner) h.2.1 _ ?_).trans ?_
      · rfl
      rw [show replyKind (entryOf s .setLink tag claimed (beBytes 4 rate.toNat) .owner).kind.code = 0xA5#8 from code]
      rfl
    exact (exec_requestOf .setLink tag claimed _ s).trans
      (congrArg Host.Outcome.next (State.deliver_served h hserve (.inr ⟨_, placing_link _ _⟩)))
  · exact exec_answers h (if_pos hl) rfl rfl
  · exact exec_refuses h (if_neg (Nat.not_le.2 hl))

end Sys2Proof.Machine
end

section
/-! PROOF. How a bay that leaves its state ends the requests that wait on it (R15, R20, R103, R178), and what its closing account
leaves when no other account takes its liability up (R84). -/

namespace Sys2Proof.Machine

open Sys2Proof.Safety

variable {s : State}

/-! ### The requests an ending completes -/

/-- An ending that picks none of the waiting requests changes nothing. -/
theorem settleWaits_none {b : Bay} {e : Ending} (hf : e.flush = none)
    (h : ∀ q ∈ s.dispatcher.queue, waitEnding s b e q = none) : s.settleWaits b e = s := by
  have hr : s.recordFlush b e = s := by unfold State.recordFlush; rw [hf]
  have hn : s.dispatcher.queue.filterMap (waitEnding s b e) = [] := List.filterMap_eq_nil_iff.2 h
  unfold State.settleWaits; dsimp only
  rw [hr, hn]; rfl

theorem settleWaits_bay (b c : Bay) (e : Ending) : (s.settleWaits b e).bay c = s.bay c := by
  obtain ⟨l, q, h⟩ := s.settleWaits_only b e; rw [h]; rfl
theorem settleWaits_account (b c : Bay) (e : Ending) : (s.settleWaits b e).account c = s.account c := by
  obtain ⟨l, q, h⟩ := s.settleWaits_only b e; rw [h]; rfl
theorem settleWaits_context (b c : Bay) (e : Ending) : (s.settleWaits b e).context c = s.context c := by
  obtain ⟨l, q, h⟩ := s.settleWaits_only b e; rw [h]; rfl
theorem settleWaits_notice (b : Bay) (e : Ending) : (s.settleWaits b e).notice = s.notice := by
  obtain ⟨l, q, h⟩ := s.settleWaits_only b e; rw [h]

/-! ### FAILED (R103) -/

/-- A wait with the outcome FAILED of bay `b` recorded, if it is a FLUSH for ALL. -/
theorem record_failed (b : Bay) (os : Vector (Option FlushOutcome) 12) :
    Wait.record b .failed (.flushAll os) = .flushAll (failedOutcomes b os) := rfl

theorem flushAllResult_eq (os : List FlushOutcome) :
    flushAllResult os = if FlushOutcome.failed ∈ os ∨ FlushOutcome.frozen ∈ os then .failed else .ok := by
  unfold flushAllResult
  have h : (os.any fun o => o = .failed || o = .frozen) = true ↔ FlushOutcome.failed ∈ os ∨ FlushOutcome.frozen ∈ os := by
    simp [and_or_left, exists_or]
  by_cases hc : FlushOutcome.failed ∈ os ∨ FlushOutcome.frozen ∈ os
  · rw [if_pos (h.2 hc), if_pos hc]
  · rw [if_neg (fun k => hc (h.1 k)), if_neg hc]

/-- What failing bay `b`'s requests makes of one queue entry, the outcome of a FLUSH for ALL being recorded first. -/
def failedEntry (b : Bay) (q : QueueEntry) : QueueEntry := { q with wait := q.wait.record b .failed }

/-- An entry that the failure of bay `b` completes is completed with its failure reply; another is not completed. -/
theorem waitEnding_failed (u : State) (b : Bay) (q : QueueEntry) :
    (waitEnding u b failedEnding (failedEntry b q)).map (fun c => replyOf (failedEntry b q) c.result c.payload) =
      if q.wait ≠ .replied ∧ waitAfterFailure b q.wait = .replied then some (failureReply u b (u.bay b).state.code q) else none := by
  obtain ⟨kind, tag, level, payload, w⟩ := q
  cases w with
  | flushAll os =>
    by_cases h : (failedOutcomes b os).toList.all Option.isSome = true
    · rw [if_pos ⟨by simp, if_pos h⟩]
      unfold waitEnding failureReply
      simp only [failedEntry, record_failed]
      rw [if_pos (by simpa [failedEnding] using h), flushAllResult_eq]
      rfl
    · rw [if_neg (fun k => Wait.noConfusion ((if_neg h).symm.trans k.2))]
      unfold waitEnding
      simp only [failedEntry, record_failed]
      rw [if_neg (by simpa [failedEnding] using h)]
      rfl
  | flush c => by_cases h : c = b <;> simp [waitEnding, failedEntry, Wait.record, waitAfterFailure, waitsOn, failureReply, h,
      failedEnding, FlushOutcome.result, flushReply, bayByte, replyOf]
  | release c => by_cases h : c = b <;> simp [waitEnding, failedEntry, Wait.record, waitAfterFailure, waitsOn, failureReply, h,
      failedEnding, releaseReply, bayByte, replyOf]
  | rechallenge c => by_cases h : c = b <;> simp [waitEnding, failedEntry, Wait.record, waitAfterFailure, waitsOn, failureReply, h,
      failedEnding, rechallengeReply, bayByte, replyOf]
  | owner => simp [waitEnding, failedEntry, Wait.record, waitAfterFailure, waitsOn]
  | slotRead => simp [waitEnding, failedEntry, Wait.record, waitAfterFailure, waitsOn]
  | slotQueued => simp [waitEnding, failedEntry, Wait.record, waitAfterFailure, waitsOn]
  | slotWriting => simp [waitEnding, failedEntry, Wait.record, waitAfterFailure, waitsOn]
  | replied => simp [waitEnding, failedEntry, Wait.record]

/-- The entry that the failure of bay `b` leaves. -/
theorem entry_after_failure (u : State) (b : Bay) (q : QueueEntry) :
    (if (waitEnding u b failedEnding (failedEntry b q)).isSome then { failedEntry b q with wait := .replied }
      else failedEntry b q) = { q with wait := waitAfterFailure b q.wait } := by
  have h := congrArg Option.isSome (waitEnding_failed u b q)
  rw [Option.isSome_map] at h
  by_cases hc : q.wait ≠ .replied ∧ waitAfterFailure b q.wait = .replied
  · rw [if_pos hc] at h
    rw [if_pos (by rw [h]; rfl), hc.2]; rfl
  · rw [if_neg hc] at h
    rw [if_neg (by rw [h]; decide)]
    obtain ⟨kind, tag, level, payload, w⟩ := q
    cases w <;> simp [waitAfterFailure, waitsOn] at hc
    case flushAll os =>
      have : waitAfterFailure b (.flushAll os) = .flushAll (failedOutcomes b os) := if_neg (by simpa using hc)
      change failedEntry b _ = QueueEntry.mk _ _ _ _ (waitAfterFailure b (.flushAll os))
      rw [this]; rfl
    all_goals simp_all [failedEntry, Wait.record, waitAfterFailure, waitsOn]

/-- Failing the requests that wait on a bay completes each of them with its failure reply, in the queue's order. -/
theorem settleWaits_failed (u : State) (h : tagsUnique u) (b : Bay) :
    u.settleWaits b failedEnding = { u with
      dispatcher := { u.dispatcher with
        queue := u.dispatcher.queue.map fun e => { e with wait := waitAfterFailure b e.wait } }
      link := ((u.dispatcher.queue.filter fun e => e.wait ≠ .replied ∧ waitAfterFailure b e.wait = .replied).map
        (failureReply u b (u.bay b).state.code)).foldl Link.place u.link } := by
  have hr : u.recordFlush b failedEnding = { u with dispatcher := { u.dispatcher with
      queue := u.dispatcher.queue.map (failedEntry b) } } := rfl
  have hu : tagsUnique { u with dispatcher := { u.dispatcher with queue := u.dispatcher.queue.map (failedEntry b) } } := by
    unfold tagsUnique at h ⊢
    simpa [Function.comp_def, failedEntry] using h
  unfold State.settleWaits; dsimp only
  rw [hr, State.completeAll_unique _ hu _ fun q c => waitEnding_tag]
  dsimp only
  rw [List.map_map, List.filterMap_map]
  congr 1
  · congr 1
    rw [← List.filterMap_eq_map (f := failureReply u b (u.bay b).state.code), List.filterMap_filter]
    refine List.filterMap_congr fun q _ => ?_
    simp only [Function.comp_apply, decide_eq_true_eq]
    exact (waitEnding_failed _ b q).trans (if_congr Iff.rfl rfl rfl)
  · congr 1
    exact List.map_congr_left fun q _ => entry_after_failure _ b q

theorem failureReply_congr {u t : State} {b : Bay} (ha : (t.account b).pending = (u.account b).pending) (hb : t.bay b = u.bay b)
    (code : Byte) : failureReply t b code = failureReply u b code := by
  funext e
  unfold failureReply
  rw [ha, hb]

/-- An event whose last act on the queue and the line is to fail the requests that wait on bay `b`. -/
theorem failsWaits_together {s u : State} {f : State → State} {b : Bay} {code : Byte}
    (hlink : (f s).link = (u.settleWaits b failedEnding).link)
    (hdisp : (f s).dispatcher = (u.settleWaits b failedEnding).dispatcher)
    (hpend : ((f s).account b).pending = (u.account b).pending) (hbay : (f s).bay b = u.bay b)
    (hd : u.dispatcher = s.dispatcher) (hl : u.link = s.link) (hc : (u.bay b).state.code = code) :
    failsWaits s (s.together f) b code := by
  intro hu
  have hu' : tagsUnique u := by unfold tagsUnique at hu ⊢; rwa [hd]
  rw [settleWaits_failed u hu', hd] at hdisp
  rw [settleWaits_failed u hu', hd, hl, hc] at hlink
  obtain ⟨os, hp, ho⟩ := s.together_perm hlink
  refine ⟨by rw [State.together_dispatcher, hdisp], os, ?_, ?_⟩
  · rw [failureReply_congr (u := u) (t := s.together f) (by rw [State.account_together, hpend]) (by rw [State.bay_together, hbay])]
    exact hp
  · have hk : ∀ (rs : List Reply) (x : State), (rs.foldl placing x).link = rs.foldl Link.place x.link := by
      intro rs
      induction rs with
      | nil => exact fun _ => rfl
      | cons r rs ih => exact fun x => (ih _).trans (by rw [List.foldl_cons, placing_link])
    rw [hk, ho]

/-! ### A closing account whose liability no other takes up (R84) -/

theorem receiver_alone {x : Serial} (h : ∀ c, (s.account c).live = true → s.serialRead c ≠ some x) : s.receiver x = none := by
  have hn : s.liveAccountsOf x = [] := by
    refine List.filter_eq_nil_iff.2 fun c _ => ?_
    simp only [Bool.and_eq_true, decide_eq_true_eq]
    exact fun k => h c k.1 k.2
  unfold State.receiver
  rw [hn]; rfl

/-- R132: the liability goes to the entry, and the serial joins the append set. -/
theorem handLiability_alone {x : Serial} {m : Liability} (h : s.receiver x = none) :
    s.handLiability x m = (s.modEntry x fun e => e.takeLiability m).joinSet x := by
  unfold State.handLiability
  rw [h]

/-- No other account of the serial is live: the closing changes no request and no reply. -/
theorem closeWithLiability_alone {b : Bay} (h : onlyAccount s b) :
    (s.closeWithLiability b).dispatcher = s.dispatcher ∧ (s.closeWithLiability b).link = s.link := by
  unfold State.closeWithLiability; dsimp only
  split
  · split
    · rename_i x hx
      have hr : (s.modAccount b fun _ => Account.cold).receiver x = none := by
        refine receiver_alone fun c hc hs => ?_
        rw [State.account_modAccount] at hc
        by_cases hb : c = b
        · rw [if_pos hb] at hc; exact nomatch hc
        · rw [if_neg hb] at hc; exact h x hx c hb hc hs
      rw [handLiability_alone hr]
      obtain ⟨l, c, hj⟩ := State.joinSet_only ((s.modAccount b fun _ => Account.cold).modEntry x fun e =>
        e.takeLiability (s.account b).liability) x
      rw [hj]; exact ⟨rfl, rfl⟩
    · exact ⟨rfl, rfl⟩
  · exact ⟨rfl, rfl⟩

theorem leaveTo_serialRead (b c : Bay) (t : BayState) (r : RejectReason) : (s.leaveTo b t r).serialRead c = s.serialRead c := by
  obtain ⟨p, u, jobs, comp, h, -⟩ := s.leaveTo_only b t r
  unfold State.serialRead
  rw [h]
  change Option.map _ (upd s.bays b _)[c].identityPage = Option.map _ s.bays[c].identityPage
  rw [upd_get]
  split
  · rename_i hc; rw [hc]
  · rfl

theorem leaveTo_requests (s : State) (b : Bay) (t : BayState) (r : RejectReason) :
    (s.leaveTo b t r).dispatcher = s.dispatcher ∧ (s.leaveTo b t r).link = s.link := by
  obtain ⟨p, u, jobs, comp, h, -⟩ := s.leaveTo_only b t r
  rw [h]; exact ⟨rfl, rfl⟩

/-! ### Rejection and fault (R6, R7, R12) -/

theorem RejectReason.notice_not_ledger (r : RejectReason) : r.notice ∉ ledgerKinds := by cases r <;> decide

/-- An event that ends in the rejection of bay `b`, from a state `v` in which it has changed neither the accounts nor what the
requests and the rejection's notice depend on. -/
theorem rejectsBay_source {s v : State} {f : State → State} {b : Bay} {why : RejectReason}
    (hf : f s = v.rejectBay b why) (hacc : v.accounts = s.accounts) (hbays : ∀ d, d ≠ b → v.bay d = s.bay d)
    (hserial : ∀ c, v.serialRead c = s.serialRead c) (hsource : v.source why.notice = s.source why.notice)
    (hd : v.dispatcher = s.dispatcher) (hl : v.link = s.link) : rejectsBay s (s.together f) b why why.notice := by
  have hlive : ∀ c, s.account c = v.account c := fun c => by unfold State.account; rw [hacc]
  obtain ⟨p, u, jobs, comp, a, t, w, l, q, j, c, h, -, ha, hk⟩ := v.rejectBay_only b why
  have hbay : (v.rejectBay b why).bay b = { v.bay b with
      fetchDue := false, state := .rejected, rejectReason := why, rechallenge := .idle, rechallengeTimer := none } := by
    rw [h]; exact upd_get_same _ _ _
  refine ⟨?_, ?_, ?_, ?_, ?_, fun hb => ?_, ?_, fun d hdb => ?_, fun honly => ?_⟩
  · rw [State.bay_together, hf, hbay]
  · rw [State.bay_together, hf, hbay]
  · rw [State.bay_together, hf, hbay]
  · rw [State.bay_together, hf, hbay]
  · rw [State.context_together, hf, h]; exact upd_get_same _ _ _
  · rw [hlive] at hb
    rw [State.account_together, hf, h]; exact ha hb
  · rw [State.source_together, hf, h]
    change (upd w why.notice.index _)[why.notice.index] = _
    rw [upd_get_same, hk _ (RejectReason.notice_not_ledger why), ← hsource]; rfl
  · rw [State.bay_together, hf, h, ← hbays d hdb]; exact upd_get_ne _ _ hdb
  · have honly' : onlyAccount (v.leaveTo b .rejected why) b := by
      intro x hx d hdb hld
      rw [leaveTo_serialRead, hserial] at hx ⊢
      refine honly x hx d hdb ?_
      obtain ⟨_, _, _, _, hlv, -⟩ := v.leaveTo_only b .rejected why
      rw [hlive]; rw [hlv] at hld; exact hld
    have hlv := leaveTo_requests v b .rejected why
    obtain ⟨hcd, hcl⟩ := closeWithLiability_alone honly'
    refine failsWaits_together (u := ((v.leaveTo b .rejected why).closeWithLiability b).raise why.notice b)
      (by rw [hf]; rfl) (by rw [hf]; rfl) ?_ ?_ ?_ ?_ ?_
    · rw [hf]; exact congrArg Account.pending (settleWaits_account _ _ _)
    · rw [hf]; exact settleWaits_bay _ _ _
    · exact hcd.trans (hlv.1.trans hd)
    · exact hcl.trans (hlv.2.trans hl)
    · have := (settleWaits_bay b b failedEnding (s := ((v.leaveTo b .rejected why).closeWithLiability b).raise why.notice b))
      rw [← this]
      exact congrArg (fun r => BayState.code (BayRec.state r)) hbay

theorem rejectsBay_together {s v : State} {f : State → State} {b : Bay} {why : RejectReason}
    (hf : f s = v.rejectBay b why) (hacc : v.accounts = s.accounts) (hbays : ∀ d, d ≠ b → v.bay d = s.bay d)
    (hserial : ∀ c, v.serialRead c = s.serialRead c) (hsources : v.notice.sources = s.notice.sources)
    (hd : v.dispatcher = s.dispatcher) (hl : v.link = s.link) : rejectsBay s (s.together f) b why why.notice :=
  rejectsBay_source hf hacc hbays hserial (by unfold State.source; rw [hsources]) hd hl

/-- An event that ends in the fault of bay `b`, from a state `v` in which it has changed nothing that the requests and notices
depend on. -/
theorem faultsBay_together {s v : State} {f : State → State} {b : Bay} (hf : f s = v.faultBay b)
    (hbays : ∀ d, d ≠ b → v.bay d = s.bay d) (hsources : v.notice.sources = s.notice.sources)
    (hd : v.dispatcher = s.dispatcher) (hl : v.link = s.link) : faultsBay s (s.together f) b := by
  obtain ⟨p, u, jobs, comp, l, q, h, -⟩ := v.faultBay_only b
  have hbay : (v.faultBay b).bay b = { v.bay b with
      fetchDue := false, state := .faulted, rejectReason := .none, rechallenge := .idle, rechallengeTimer := none } := by
    rw [h]; exact upd_get_same _ _ _
  refine ⟨?_, ?_, ?_, ?_, ?_, ?_, fun d hdb => ?_, ?_⟩
  · rw [State.bay_together, hf, hbay]
  · rw [State.bay_together, hf, hbay]
  · rw [State.bay_together, hf, hbay]
  · rw [State.bay_together, hf, hbay]
  · rw [State.context_together, hf, h]; exact upd_get_same _ _ _
  · rw [State.together_notice, hf, h]
    have hs : s.source .bayFaulted = v.source .bayFaulted := by unfold State.source; rw [hsources]
    rw [hs, ← hsources]; rfl
  · rw [State.bay_together, hf, h, ← hbays d hdb]; exact upd_get_ne _ _ hdb
  · have hlv := leaveTo_requests v b .faulted .none
    refine failsWaits_together (u := (v.leaveTo b .faulted .none).raise .bayFaulted b)
      (by rw [hf]; rfl) (by rw [hf]; rfl) ?_ ?_ ?_ ?_ ?_
    · rw [hf]; exact congrArg Account.pending (settleWaits_account _ _ _)
    · rw [hf]; exact settleWaits_bay _ _ _
    · exact hlv.1.trans hd
    · exact hlv.2.trans hl
    · have := (settleWaits_bay b b failedEnding (s := (v.leaveTo b .faulted .none).raise .bayFaulted b))
      rw [← this]
      exact congrArg (fun r => BayState.code (BayRec.state r)) hbay

end Sys2Proof.Machine
end

section
/-! PROOF. The requests that act on a bay: FLUSH (R92), RELEASE (R15), BAY-RESET (R17) and RECHALLENGE (R20). -/

namespace Sys2Proof.Machine

open Sys2Proof.Safety

variable {s : State}

/-- A taken request is served by its owner as one event. -/
theorem exec_together {k : RequestKind} {tag claimed : Byte} {p : List Byte} (h : admits s k tag claimed p) :
    exec (requestOf k tag claimed p) s = .next
      ((holding s (entryOf s k tag claimed p .owner)).together fun t => t.serve (entryOf s k tag claimed p .owner)) := by
  rw [exec_requestOf, State.deliver_admits h]

theorem finish_only (s : State) (e : QueueEntry) (r : ResultCode) (p : List Byte) :
    ∃ l q, s.finish e r p = { s with link := l, dispatcher := { s.dispatcher with queue := q } } :=
  s.complete_only { tag := e.tag, result := r, payload := p }

/-! ### BAY-RESET and RECHALLENGE -/

theorem withBayRec_self (s : State) (b : Bay) : withBayRec s b (s.bay b) = s := by
  have h : s.bays.set b (s.bay b) = s.bays := upd_id s.bays b id rfl
  unfold withBayRec; rw [h]

theorem saving_normal (h : s.supply.state = .normal) : ¬s.supply.saving = true := by
  unfold Supply.saving; rw [h]; decide

theorem saving_of (h : s.supply.state = .save ∨ s.supply.state = .expired) : s.supply.saving = true := by
  unfold Supply.saving; rcases h with h | h <;> rw [h] <;> rfl

theorem held_of {t : BayState} (h : t = .faulted ∨ t = .rejected ∨ t = .quarantined ∨ t = .released) : t.held = true := by
  rcases h with rfl | rfl | rfl | rfl <;> rfl

/-- What a taken BAY-RESET makes of the bay's own fields, and what it leaves (R17). -/
theorem resetBay_only (s : State) (b : Bay) : ∃ u jobs comp a t v l q j c, s.resetBay b = { s with
      bays := upd s.bays b fun r =>
        { BayRec.cleared r.expectedClass with
          state := .identifying, serial := r.serial, readAttempts := 0, settleTimer := none, settled := false }
      ports := upd s.ports b fun _ => Port.cleared
      buses := u
      digest := { s.digest with contexts := upd s.digest.contexts b fun _ => Context.closed, queue := jobs, computing := comp }
      accounts := a, refill := { s.refill with table := t }, notice := { s.notice with sources := v }
      journal := { s.journal with appendSet := j, copyStale := c }
      link := l, dispatcher := { s.dispatcher with queue := q }
      orders := upd s.orders b fun _ => [] } ∧ ((s.account b).live = true → a[b] = Account.cold) := by
  let x := (((s.withdrawPosted b).discardTransaction b fun _ => true).closeContext b).modDigest fun d => d.dropJob b
  obtain ⟨a, t, v, l, q, j, c, h, ha, -⟩ := x.closeWithLiability_only b
  refine ⟨x.buses, x.digest.queue, x.digest.computing, a, t, v, l, q, j, c, ?_, ha⟩
  unfold State.resetBay State.enterIdentifying
  dsimp only
  rw [h]
  simp only [State.modBay, State.modOrders, upd_upd]
  rfl

/-- Settles O47: the branches of the two owners; what a taken BAY-RESET does is `resetBay_only`. -/
theorem bayResetAndRechallengeAreTaken : Obligations.BayResetAndRechallengeAreTaken := by
  refine ⟨fun s tag claimed b h => ⟨fun hn => ⟨fun hh => ?_, fun hh => ?_⟩, fun hs => ?_⟩,
    fun s tag claimed b h => ⟨fun hn => ⟨fun hh => ?_, fun hh => ?_⟩, fun hs => ?_⟩⟩
  · have hserve : (holding s (entryOf s .bayReset tag claimed [BitVec.ofNat 8 b.val] .owner)).serve
        (entryOf s .bayReset tag claimed [BitVec.ofNat 8 b.val] .owner) =
        ((holding s (entryOf s .bayReset tag claimed [BitVec.ofNat 8 b.val] .owner)).resetBay b).finish
          (entryOf s .bayReset tag claimed [BitVec.ofNat 8 b.val] .owner) .ok [bayByte b] :=
      (forBay_bay (rest := []) rfl _).trans ((if_neg (saving_normal hn)).trans
        (if_neg (by rw [show ((holding s _).bay b).state.held = true from held_of hh]; decide)))
    obtain ⟨u, jobs, comp, a, t, v, l, q, j, c, hr, ha⟩ :=
      resetBay_only (holding s (entryOf s .bayReset tag claimed [BitVec.ofNat 8 b.val] .owner)) b
    obtain ⟨l', q', hf⟩ := finish_only ((holding s (entryOf s .bayReset tag claimed [BitVec.ofNat 8 b.val] .owner)).resetBay b)
      (entryOf s .bayReset tag claimed [BitVec.ofNat 8 b.val] .owner) .ok [bayByte b]
    obtain ⟨l'', n, ht⟩ := State.together_only (holding s (entryOf s .bayReset tag claimed [BitVec.ofNat 8 b.val] .owner))
      fun t => t.serve (entryOf s .bayReset tag claimed [BitVec.ofNat 8 b.val] .owner)
    rw [hserve, hf, hr] at ht
    refine ⟨_, exec_together h, ?_⟩
    rw [ht]
    exact ⟨upd_get_same _ _ _, upd_get_same _ _ _, upd_get_same _ _ _, upd_get_same _ _ _, ha,
      fun c hc => ⟨upd_get_ne _ _ hc, upd_get_ne _ _ hc, upd_get_ne _ _ hc⟩, rfl, rfl⟩
  · refine exec_refuses h ((forBay_bay (rest := []) rfl _).trans ?_)
    exact (if_neg (saving_normal hn)).trans (if_pos (by rw [show ((holding s _).bay b).state.held = false from hh]; rfl))
  · exact exec_refuses h ((forBay_bay (rest := []) rfl _).trans (if_pos (saving_of hs)))
  · have hserve : (holding s (entryOf s .rechallenge tag claimed [BitVec.ofNat 8 b.val] .owner)).serve
        (entryOf s .rechallenge tag claimed [BitVec.ofNat 8 b.val] .owner) =
        (holding (withBayRec s b (if (s.bay b).rechallenge = .idle then
          { s.bay b with rechallenge := .waiting, rechallengeTimer := none } else s.bay b))
          (entryOf s .rechallenge tag claimed [BitVec.ofNat 8 b.val] .owner)).setWait tag (.rechallenge b) := by
      refine (forBay_bay (rest := []) rfl _).trans ((if_neg (saving_normal hn)).trans
        ((if_neg (show ¬((s.bay b).state != .admitted) = true by simp [hh])).trans (congrArg (State.setWait · tag (.rechallenge b)) ?_)))
      by_cases hi : (s.bay b).rechallenge = .idle
      · rw [if_pos hi]
        exact if_pos hi
      · rw [if_neg hi]
        exact (if_neg hi).trans (withBayRec_self _ _).symm
    exact exec_waits h hserve rfl rfl
  · refine exec_refuses h ((forBay_bay (rest := []) rfl _).trans ?_)
    exact (if_neg (saving_normal hn)).trans (if_pos (bne_iff_ne.2 hh))
  · exact exec_refuses h ((forBay_bay (rest := []) rfl _).trans (if_pos (saving_of hs)))

/-! ### FLUSH -/

theorem bayByte_not_all (b : Bay) : ¬(BitVec.ofNat 8 b.val : Byte) = 0xFF#8 := by revert b; decide

/-- R92's table: the bays a FLUSH waits on, those in FROZEN, and the others. -/
theorem flushOutcomeAt_none (r : BayRec) (a : Account) : flushOutcomeAt r a = none ↔
    r.drawable = true ∧ a.metering = .metered ∧ a.mode ≠ .frozen ∧ 0 < a.pending := by
  unfold flushOutcomeAt
  cases r.drawable <;> cases a.metering <;> by_cases hm : a.mode = .frozen <;> by_cases hp : a.pending = 0 <;>
    simp [hm, hp, Nat.pos_iff_ne_zero]

theorem flushOutcomeAt_frozen (r : BayRec) (a : Account) : flushOutcomeAt r a = some .frozen ↔
    r.drawable = true ∧ a.metering = .metered ∧ a.mode = .frozen := by
  unfold flushOutcomeAt
  cases r.drawable <;> cases a.metering <;> by_cases hm : a.mode = .frozen <;> by_cases hp : a.pending = 0 <;> simp [hm, hp]

theorem flushOutcomeAt_cases (r : BayRec) (a : Account) :
    flushOutcomeAt r a = none ∨ flushOutcomeAt r a = some .frozen ∨ flushOutcomeAt r a = some .nothing := by
  unfold flushOutcomeAt
  split
  · exact .inr (.inr rfl)
  · split
    · exact .inr (.inr rfl)
    · split
      · exact .inr (.inl rfl)
      · split
        · exact .inr (.inr rfl)
        · exact .inl rfl

/-- The outcomes a FLUSH for ALL records at once. -/
def flushOutcomes (s : State) : Vector (Option FlushOutcome) 12 := Vector.ofFn fun b => flushOutcomeAt (s.bay b) (s.account b)

/-- The accounts a FLUSH for ALL leaves: the FLUSH demand of each bay it waits on. -/
def flushAccounts (s : State) : Vector Account 12 := Vector.ofFn fun b =>
  if (flushOutcomeAt (s.bay b) (s.account b)).isNone then
    { s.account b with drain := { (s.account b).drain with flush := true } } else s.account b

theorem flushOutcomes_get (s : State) (b : Bay) : (flushOutcomes s)[b] = flushOutcomeAt (s.bay b) (s.account b) := by
  simp [flushOutcomes]

theorem flushAccounts_get (s : State) (b : Bay) : (flushAccounts s)[b] =
    if (flushOutcomeAt (s.bay b) (s.account b)).isNone then
      { s.account b with drain := { (s.account b).drain with flush := true } } else s.account b := by
  simp [flushAccounts]

/-- Two tables of the bays are one if they agree on each bay. -/
theorem bays_ext {α : Type} {v w : Vector α 12} (h : ∀ b : Bay, v[b] = w[b]) : v = w :=
  Vector.ext fun i hi => h ⟨i, hi⟩

theorem flushAccounts_none (h : ∀ b, flushOutcomeAt (s.bay b) (s.account b) ≠ none) : flushAccounts s = s.accounts :=
  bays_ext fun b => by
    rw [flushAccounts_get, if_neg (by simpa using h b)]; rfl

theorem flushOutcomes_all_iff (s : State) : (flushOutcomes s).toList.all Option.isSome = true ↔
    ∀ b, flushOutcomeAt (s.bay b) (s.account b) ≠ none := by
  rw [List.all_eq_true]
  simp only [flushOutcomes, Vector.toList_ofFn, List.mem_ofFn, forall_exists_index, forall_apply_eq_imp_iff,
    Option.isSome_iff_ne_none]

/-- With every outcome known, the list of outcomes and its codes. -/
theorem flushOutcomes_known (h : ∀ b, flushOutcomeAt (s.bay b) (s.account b) ≠ none) (codes : Vector Byte 12)
    (hc : ∀ b : Bay, ((flushOutcomeAt (s.bay b) (s.account b)).getD .nothing).code = codes[b]) :
    (flushOutcomes s).toList.filterMap id = List.ofFn (fun b => (flushOutcomeAt (s.bay b) (s.account b)).getD .nothing) ∧
      ((flushOutcomes s).toList.filterMap id).map FlushOutcome.code = codes.toList := by
  have known : (flushOutcomes s).toList.filterMap id =
      List.ofFn (fun b => (flushOutcomeAt (s.bay b) (s.account b)).getD .nothing) := by
    have hs : (flushOutcomes s).toList =
        (List.ofFn fun b => (flushOutcomeAt (s.bay b) (s.account b)).getD .nothing).map some := by
      unfold flushOutcomes
      rw [Vector.toList_ofFn, List.map_ofFn]
      refine congrArg List.ofFn (funext fun b => ?_)
      obtain ⟨o, ho⟩ := Option.ne_none_iff_exists'.1 (h b)
      simp [ho]
    rw [hs, List.filterMap_map]
    exact List.filterMap_some
  refine ⟨known, ?_⟩
  have hcodes : codes = Vector.ofFn fun b => ((flushOutcomeAt (s.bay b) (s.account b)).getD .nothing).code :=
    bays_ext fun b => by rw [← hc]; simp
  rw [known, hcodes, Vector.toList_ofFn, List.map_ofFn]
  rfl

theorem serveFlush_bay {e : QueueEntry} {b : Bay} (h : e.payload = [BitVec.ofNat 8 b.val]) :
    s.serveFlush e = s.flushBay e b := by
  have hb : byteAt e.payload 0 = BitVec.ofNat 8 b.val := by rw [h]; rfl
  unfold State.serveFlush
  rw [hb, if_neg (bayByte_not_all b), forBay_bay h]

theorem flushBay_eq (s : State) (e : QueueEntry) (b : Bay) : s.flushBay e b =
    if (s.bay b).drawable = false ∨ ((s.account b).metering = .metered ∧ (s.account b).mode = .frozen) then s.finish e .state []
    else if (s.account b).metering = .unmetered ∨ (s.account b).pending = 0 then s.finish e .ok (flushReply s b)
    else (s.demandFlush b).setWait e.tag (.flush b) := by
  unfold State.flushBay flushCase
  cases (s.bay b).drawable <;> cases (s.account b).metering <;> by_cases hm : (s.account b).mode = .frozen <;>
    by_cases hp : (s.account b).pending = 0 <;> simp [hm, hp]

theorem serveFlush_all {e : QueueEntry} (h : e.payload = [0xFF#8]) : s.serveFlush e =
    if ∀ b, flushOutcomeAt (s.bay b) (s.account b) ≠ none then
      ({ s with accounts := flushAccounts s }).finish e (flushAllResult ((flushOutcomes s).toList.filterMap id))
        (((flushOutcomes s).toList.filterMap id).map FlushOutcome.code)
    else ({ s with accounts := flushAccounts s }).setWait e.tag (.flushAll (flushOutcomes s)) := by
  have hb : byteAt e.payload 0 = 0xFF#8 := by rw [h]; rfl
  unfold State.serveFlush
  rw [hb, if_pos rfl]
  exact if_congr (flushOutcomes_all_iff s) rfl rfl

/-- Settles O45: R92's table for one bay (`flushBay_eq`), and for ALL the outcomes of the twelve bays. -/
theorem flushWaitsForPending : Obligations.FlushWaitsForPending := by
  refine fun s tag claimed => ⟨fun b h => ⟨fun hd hm hf => ⟨fun hp => ?_, fun hp => ?_⟩, fun hd hm => ?_, fun hr => ?_⟩,
    fun h => ⟨fun hw codes hc => ?_, fun hw => ?_⟩⟩
  · refine exec_waits (t := s.demandFlush b) h ((serveFlush_bay rfl).trans ((flushBay_eq _ _ _).trans ?_)) rfl rfl
    refine (if_neg ?_).trans (if_neg ?_)
    · exact fun k => k.elim (fun k => Bool.noConfusion (hd.symm.trans k)) fun k => hf k.2
    · exact fun k => k.elim (fun k => Metering.noConfusion (hm.symm.trans k)) fun k => absurd k (Nat.pos_iff_ne_zero.1 hp)
  · have hx : flushReply s b = [BitVec.ofNat 8 b.val, 0x00#8, 0x00#8] := by unfold flushReply; rw [hp]; rfl
    rw [← hx]
    refine exec_refuses h ((serveFlush_bay rfl).trans ((flushBay_eq _ _ _).trans ((if_neg ?_).trans (if_pos (.inr hp)))))
    exact fun k => k.elim (fun k => Bool.noConfusion (hd.symm.trans k)) fun k => hf k.2
  · refine exec_refuses h ((serveFlush_bay rfl).trans ((flushBay_eq _ _ _).trans ((if_neg ?_).trans (if_pos (.inl hm)))))
    exact fun k => k.elim (fun k => Bool.noConfusion (hd.symm.trans k)) fun k => Metering.noConfusion (hm.symm.trans k.1)
  · exact exec_refuses h ((serveFlush_bay rfl).trans ((flushBay_eq _ _ _).trans (if_pos hr)))
  · have known : ∀ b, flushOutcomeAt (s.bay b) (s.account b) ≠ none := fun b k => hw b ((flushOutcomeAt_none _ _).1 k)
    have hcode : ∀ b : Bay, ((flushOutcomeAt (s.bay b) (s.account b)).getD .nothing).code = codes[b] := fun b => by
      rcases flushOutcomeAt_cases (s.bay b) (s.account b) with k | k | k
      · exact absurd k (known b)
      · rw [k, (hc b).1 ((flushOutcomeAt_frozen _ _).1 k)]; rfl
      · rw [k, (hc b).2 fun f => ?_]
        · rfl
        · exact absurd (k.symm.trans ((flushOutcomeAt_frozen _ _).2 f)) (by decide)
    obtain ⟨hos, hcs⟩ := flushOutcomes_known known codes hcode
    have same : flushAccounts s = s.accounts := flushAccounts_none known
    have hserve : (holding s (entryOf s .flush tag claimed [0xFF#8] .owner)).serve (entryOf s .flush tag claimed [0xFF#8] .owner) =
        (holding s (entryOf s .flush tag claimed [0xFF#8] .owner)).finish (entryOf s .flush tag claimed [0xFF#8] .owner)
          (flushAllResult ((flushOutcomes s).toList.filterMap id)) codes.toList := by
      refine (serveFlush_all rfl).trans ((if_pos known).trans ?_)
      change State.finish { holding s _ with accounts := flushAccounts s } _ _ (((flushOutcomes s).toList.filterMap id).map _) = _
      rw [same, hcs]
      rfl
    have hmem : ∀ o, o ∈ (flushOutcomes s).toList.filterMap id ↔
        ∃ b, (flushOutcomeAt (s.bay b) (s.account b)).getD .nothing = o := fun o => by rw [hos, List.mem_ofFn]
    have hfailed : FlushOutcome.failed ∉ (flushOutcomes s).toList.filterMap id := fun k => by
      obtain ⟨b, hb⟩ := (hmem _).1 k
      rcases flushOutcomeAt_cases (s.bay b) (s.account b) with k | k | k <;> rw [k] at hb <;> exact nomatch hb
    have hfrozen : FlushOutcome.frozen ∈ (flushOutcomes s).toList.filterMap id ↔
        ∃ b, (s.bay b).drawable = true ∧ (s.account b).metering = .metered ∧ (s.account b).mode = .frozen := by
      rw [hmem]
      refine exists_congr fun b => Iff.trans ?_ (flushOutcomeAt_frozen _ _)
      rcases flushOutcomeAt_cases (s.bay b) (s.account b) with k | k | k <;> rw [k] <;> decide
    rw [flushAllResult_eq] at hserve
    refine ⟨fun hn => ?_, fun hn => ?_⟩
    · rw [if_neg (fun k => k.elim hfailed fun k => (hfrozen.1 k).elim hn)] at hserve
      exact exec_refuses h hserve
    · rw [if_pos (.inr (hfrozen.2 hn))] at hserve
      exact exec_refuses h hserve
  · refine ⟨flushOutcomes s, flushAccounts s, ?_, fun b => ⟨fun k => ?_, fun k => ⟨?_, fun f => ?_, fun f => ?_⟩⟩⟩
    · obtain ⟨b, hb⟩ := hw
      exact exec_waits (t := { s with accounts := flushAccounts s }) h ((serveFlush_all rfl).trans
        (if_neg fun k => k b ((flushOutcomeAt_none _ _).2 hb))) rfl rfl
    · have hn := (flushOutcomeAt_none _ _).2 k
      rw [flushOutcomes_get, flushAccounts_get, hn]
      exact ⟨rfl, rfl⟩
    · rw [flushAccounts_get, if_neg]
      intro hn
      exact k ((flushOutcomeAt_none _ _).1 (Option.isNone_iff_eq_none.1 hn))
    · rw [flushOutcomes_get, (flushOutcomeAt_frozen _ _).2 f]
    · rw [flushOutcomes_get]
      rcases flushOutcomeAt_cases (s.bay b) (s.account b) with j | j | j
      · exact absurd ((flushOutcomeAt_none _ _).1 j) k
      · exact absurd ((flushOutcomeAt_frozen _ _).1 j) f
      · exact j

end Sys2Proof.Machine
end

section
/-! PROOF. RELEASE (R15, R61, R78, R104). -/

namespace Sys2Proof.Machine

open Sys2Proof.Safety

variable {s : State}

/-! ### A taken request as one event -/

/-- The state after a taken request: what its owner makes of the state, with the replies it places in a free order (R169). -/
theorem exec_event {k : RequestKind} {tag claimed : Byte} {p : List Byte} {x : State} (h : admits s k tag claimed p)
    (hx : (holding s (entryOf s k tag claimed p .owner)).serve (entryOf s k tag claimed p .owner) = x) :
    ∃ t, exec (requestOf k tag claimed p) s = .next t ∧ (∃ l n, t = { x with link := l, free := n }) ∧
      (∀ r, x.link = s.link.place r → t.link = (placing s r).link) ∧
      ∀ q r, x.link = (s.link.place q).place r → eitherOrder s t q r := by
  refine ⟨_, exec_together h, ?_, fun r hr => ?_, fun q r hr => ?_⟩
  · rw [← hx]; exact State.together_only _ _
  · have hl := State.together_of_place (f := fun t => t.serve (entryOf s k tag claimed p .owner)) (r := r)
      (holding s (entryOf s k tag claimed p .owner)) (by rw [hx]; exact hr)
    rw [hl, hx, hr, placing_link]
  · exact State.together_eitherOrder (s := holding s (entryOf s k tag claimed p .owner))
      (f := fun t => t.serve (entryOf s k tag claimed p .owner)) (by rw [hx]; exact hr)

/-! ### A challenge ended from outside, and a bay that is released -/

/-- R61: the port of a bay whose challenge has ended. -/
def endedPort (q : Port) : Port where
  posted := match q.posted with
    | some r => if r.op.isChallenge then none else some r
    | none => none
  answerTimer := none
  fetchCount := 0

/-- R61: the bus, the result of the bay's challenge transaction being discarded when it reaches the bay. -/
def endedBus (b : Bay) (u : BusState) : BusState :=
  { u with current := u.current.map fun t => if t.bay = b && t.request.op.isChallenge then { t with discarded := true } else t }

theorem endChallenge_eq (s : State) (b : Bay) : s.endChallenge b = { s with
    bays := upd s.bays b fun x => { x with fetchDue := false }
    ports := upd s.ports b endedPort, buses := upd s.buses (busOf b) (endedBus b)
    digest := { s.digest.dropJob b with contexts := upd s.digest.contexts b fun _ => Context.closed } } := rfl

theorem leaveTo_eq (s : State) (b : Bay) (t : BayState) (r : RejectReason) : s.leaveTo b t r = { s with
    bays := upd s.bays b fun x =>
      { x with fetchDue := false, state := t, rejectReason := r, rechallenge := .idle, rechallengeTimer := none }
    ports := upd s.ports b endedPort, buses := upd s.buses (busOf b) (endedBus b)
    digest := { s.digest.dropJob b with contexts := upd s.digest.contexts b fun _ => Context.closed } } := by
  unfold State.leaveTo
  rw [endChallenge_eq]
  simp only [State.modBay, upd_upd]

/-- The state in which a bay has become RELEASED, the requests that wait on it not yet completed (R15). -/
def releasedState (s : State) (b : Bay) : State := (s.leaveTo b .released .none).raise .released b

theorem enterReleased_eq (s : State) (b : Bay) (e : Ending) : s.enterReleased b e = (releasedState s b).settleWaits b e := rfl

theorem releasedState_bay (s : State) (b : Bay) : (releasedState s b).bay b = { s.bay b with
    fetchDue := false, state := .released, rejectReason := .none, rechallenge := .idle, rechallengeTimer := none } := by
  unfold releasedState; rw [leaveTo_eq]; exact upd_get_same _ _ _

theorem releasedState_bay_ne (s : State) {b c : Bay} (h : c ≠ b) : (releasedState s b).bay c = s.bay c := by
  unfold releasedState; rw [leaveTo_eq]; exact upd_get_ne _ _ h

theorem releasedState_source (s : State) (b : Bay) : (releasedState s b).source .released = joined (s.source .released) b := by
  unfold releasedState; rw [leaveTo_eq]; exact upd_get_same _ _ _

theorem releasedState_requests (s : State) (b : Bay) : (releasedState s b).dispatcher = s.dispatcher ∧
    (releasedState s b).link = s.link ∧ (releasedState s b).accounts = s.accounts := by
  unfold releasedState; rw [leaveTo_eq]; exact ⟨rfl, rfl, rfl⟩

theorem closeEmpty_requests (s : State) (b : Bay) : (s.closeEmpty b).dispatcher = s.dispatcher ∧
    (s.closeEmpty b).link = s.link ∧ (s.closeEmpty b).bays = s.bays ∧ (s.closeEmpty b).notice = s.notice ∧
    (s.closeEmpty b).accounts = upd s.accounts b fun _ => Account.cold := by
  obtain ⟨j, c, h⟩ := s.closeEmpty_only b
  rw [h]; exact ⟨rfl, rfl, rfl, rfl, rfl⟩

theorem settleWaits_bays (b : Bay) (e : Ending) : (s.settleWaits b e).bays = s.bays := by
  obtain ⟨l, q, h⟩ := s.settleWaits_only b e; rw [h]
theorem settleWaits_accounts (b : Bay) (e : Ending) : (s.settleWaits b e).accounts = s.accounts := by
  obtain ⟨l, q, h⟩ := s.settleWaits_only b e; rw [h]
theorem settleWaits_source (b : Bay) (e : Ending) (k : NoticeKind) : (s.settleWaits b e).source k = s.source k := by
  obtain ⟨l, q, h⟩ := s.settleWaits_only b e; rw [h]; rfl

/-! ### The RELEASE of an ADMITTED bay with a METERED account -/

/-- The bay moves to RELEASING, its demand is set, and the request waits (R15). -/
def releasing (s : State) (e : QueueEntry) (b : Bay) : State :=
  ((s.modBay b fun r =>
      { r with
        state := .releasing
        rechallengeTimer := none
        rechallenge := if r.rechallenge = .waiting then .idle else r.rechallenge }).modAccount b fun a =>
      { a with drain := { a.drain with release := true } }).setWait e.tag (.release b)

/-- The RELEASE up to the rounding: a WAITING re-challenge has ended (R61). -/
def releaseBegun (s : State) (e : QueueEntry) (b : Bay) : State :=
  if (s.bay b).rechallenge = .waiting then
    ((releasing s e b).endChallenge b).settleWaits b { rechallenge := some .failed } else releasing s e b

theorem releaseMetered_eq (s : State) (e : QueueEntry) (b : Bay) : s.releaseMetered e b = (releaseBegun s e b).roundRelease b := by
  unfold State.releaseMetered releaseBegun releasing
  dsimp only

theorem releaseBegun_accounts (s : State) (e : QueueEntry) (b : Bay) : (releaseBegun s e b).accounts =
    upd s.accounts b fun a => { a with drain := { a.drain with release := true } } := by
  unfold releaseBegun
  split
  · rw [settleWaits_accounts, endChallenge_eq]; rfl
  · rfl

theorem releaseBegun_account (s : State) (e : QueueEntry) (b : Bay) : (releaseBegun s e b).account b =
    { s.account b with drain := { (s.account b).drain with release := true } } := by
  unfold State.account; rw [releaseBegun_accounts]; exact upd_get_same _ _ _

theorem releaseBegun_bay (s : State) (e : QueueEntry) (b : Bay) : (releaseBegun s e b).bay b = { s.bay b with
    state := .releasing, rechallengeTimer := none
    rechallenge := if (s.bay b).rechallenge = .waiting then .idle else (s.bay b).rechallenge
    fetchDue := if (s.bay b).rechallenge = .waiting then false else (s.bay b).fetchDue } := by
  have hr : (releasing s e b).bay b = { s.bay b with
      state := .releasing, rechallengeTimer := none
      rechallenge := if (s.bay b).rechallenge = .waiting then .idle else (s.bay b).rechallenge } := upd_get_same _ _ _
  have he : ((releasing s e b).endChallenge b).bay b = { (releasing s e b).bay b with fetchDue := false } := by
    rw [endChallenge_eq]; exact upd_get_same _ _ _
  unfold releaseBegun
  by_cases h : (s.bay b).rechallenge = .waiting
  · rw [if_pos h, settleWaits_bay, he, hr]; simp [h]
  · rw [if_neg h, hr]; simp [h]

theorem releaseBegun_bay_ne (s : State) (e : QueueEntry) {b c : Bay} (hc : c ≠ b) : (releaseBegun s e b).bay c = s.bay c := by
  have hr : (releasing s e b).bay c = s.bay c := upd_get_ne _ _ hc
  have he : ((releasing s e b).endChallenge b).bay c = (releasing s e b).bay c := by
    rw [endChallenge_eq]; exact upd_get_ne _ _ hc
  unfold releaseBegun
  split
  · rw [settleWaits_bay, he, hr]
  · exact hr

theorem releaseBegun_source (s : State) (e : QueueEntry) (b : Bay) (k : NoticeKind) :
    (releaseBegun s e b).source k = s.source k := by
  unfold releaseBegun
  split
  · rw [settleWaits_source, endChallenge_eq]; rfl
  · rfl

/-! ### The requests that a RELEASE completes -/

/-- An ending that picks a RECHALLENGE only. -/
theorem waitEnding_rechallenge (u : State) (b : Bay) (r : ResultCode) (q : QueueEntry) :
    waitEnding u b { rechallenge := some r } q = if q.wait = .rechallenge b then
      some { tag := q.tag, result := r, payload := rechallengeReply u b } else none := by
  obtain ⟨kind, tag, level, payload, w⟩ := q
  cases w <;> simp [waitEnding]

/-- The requests that an ending picks are completed in the queue's order. -/
theorem settleWaits_picks {u : State} {b : Bay} {e : Ending} (p : QueueEntry → Bool) (g : QueueEntry → Completion)
    (hf : e.flush = none) (h : tagsUnique u)
    (hp : ∀ q ∈ u.dispatcher.queue, waitEnding u b e q = if p q then some (g q) else none) :
    (u.settleWaits b e).link =
      ((u.dispatcher.queue.filter p).map fun q => replyOf q (g q).result (g q).payload).foldl Link.place u.link := by
  rw [u.settleWaits_unique h b e (.inl hf)]
  refine congrArg (List.foldl Link.place u.link) ?_
  rw [← List.filterMap_eq_map (f := fun q => replyOf q (g q).result (g q).payload), List.filterMap_filter]
  refine List.filterMap_congr fun q hq => ?_
  rw [hp q hq]
  by_cases hc : p q = true
  · rw [if_pos hc, if_pos hc]; rfl
  · rw [if_neg hc, if_neg hc]; rfl

/-- With one RECHALLENGE waiting on the bay, its end completes it. -/
theorem settleWaits_rechallenge {u : State} {b : Bay} {r : ResultCode} {q : QueueEntry} (h : tagsUnique u)
    (hq : (u.dispatcher.queue.filter fun q => q.wait = .rechallenge b) = [q]) :
    (u.settleWaits b { rechallenge := some r }).link = u.link.place (replyOf q r (rechallengeReply u b)) := by
  rw [settleWaits_picks (fun q => q.wait = .rechallenge b)
    (fun q => { tag := q.tag, result := r, payload := rechallengeReply u b }) rfl h
    fun x _ => by rw [waitEnding_rechallenge]; simp only [decide_eq_true_eq], hq]
  rfl

theorem settleWaits_rechallenge_none {u : State} {b : Bay} {r : ResultCode}
    (h : ∀ q ∈ u.dispatcher.queue, q.wait ≠ .rechallenge b) : u.settleWaits b { rechallenge := some r } = u :=
  settleWaits_none rfl fun q hq => by rw [waitEnding_rechallenge, if_neg (h q hq)]

/-- An entry that does not wait on the bay is not completed by an event at the bay. -/
theorem waitEnding_of_not_waitsOn (u : State) {b : Bay} (e : Ending) {q : QueueEntry} (h : waitsOn b q.wait = false) :
    waitEnding u b e q = none := by
  obtain ⟨kind, tag, level, payload, w⟩ := q
  cases w <;> simp_all [waitEnding, waitsOn]

theorem record_of_not_waitsOn {b : Bay} (o : FlushOutcome) {w : Wait} (h : waitsOn b w = false) : w.record b o = w := by
  unfold Wait.record
  split
  · exact nomatch h
  · rfl

theorem recordFlush_same {u : State} {b : Bay} (e : Ending)
    (h : ∀ q ∈ u.dispatcher.queue, ∀ o, q.wait.record b o = q.wait) : u.recordFlush b e = u := by
  unfold State.recordFlush
  split
  · rfl
  · rename_i o _
    have hq : (u.dispatcher.queue.map fun q => { q with wait := q.wait.record b o }) = u.dispatcher.queue :=
      (List.map_congr_left (g := id) fun q hq => by rw [h q hq]; rfl).trans (List.map_id _)
    unfold State.modDispatcher
    dsimp only
    rw [hq]

/-- With nothing waiting on the bay, an event at the bay completes nothing. -/
theorem settleWaits_of_not_waitsOn {u : State} {b : Bay} (e : Ending) (h : ∀ q ∈ u.dispatcher.queue, waitsOn b q.wait = false) :
    u.settleWaits b e = u := by
  have hn : u.dispatcher.queue.filterMap (waitEnding u b e) = [] :=
    List.filterMap_eq_nil_iff.2 fun q hq => waitEnding_of_not_waitsOn u e (h q hq)
  unfold State.settleWaits; dsimp only
  rw [recordFlush_same e fun q hq o => record_of_not_waitsOn o (h q hq), hn]; rfl

theorem waitingOn_nil {b : Bay} (h : waitingOn s b = []) : ∀ q ∈ s.dispatcher.queue, waitsOn b q.wait = false := fun q hq => by
  simpa using List.filter_eq_nil_iff.1 h q hq

/-- With the request just taken alone waiting on the bay, an event at the bay completes it. -/
theorem settleWaits_own {u : State} {e : QueueEntry} {b : Bay} {d : Ending} {c : Completion}
    (hu : u.dispatcher.queue = s.dispatcher.queue ++ [e]) (hfresh : ∀ x ∈ s.dispatcher.queue, x.tag ≠ e.tag)
    (hs : ∀ q ∈ s.dispatcher.queue, waitsOn b q.wait = false) (hw : ∀ os, e.wait ≠ .flushAll os)
    (hc : waitEnding u b d e = some c) (ht : c.tag = e.tag) (hr : c.newRate = none) :
    (u.settleWaits b d).link = u.link.place (replyOf e c.result c.payload) := by
  have hrec : u.recordFlush b d = u := recordFlush_same d fun q hq o => by
    rw [hu, List.mem_append, List.mem_singleton] at hq
    rcases hq with hq | rfl
    · exact record_of_not_waitsOn o (hs q hq)
    · unfold Wait.record
      split
      · rename_i os hos; exact absurd hos (hw os)
      · rfl
  have hlist : u.dispatcher.queue.filterMap (waitEnding u b d) = [c] := by
    rw [hu, List.filterMap_append, List.filterMap_eq_nil_iff.2 fun q hq => waitEnding_of_not_waitsOn u d (hs q hq)]
    simp [hc]
  have hfind : u.dispatcher.queue.find? (fun x => x.tag = c.tag) = some e := by
    rw [hu, ht, List.find?_append, List.find?_eq_none.2 (by simpa using hfresh)]; simp
  unfold State.settleWaits; dsimp only
  rw [hrec, hlist]
  change (u.complete c).link = _
  unfold State.complete
  rw [hfind]; dsimp only
  rw [State.placeReply_eq, placing_link, ht, hr]
  rfl

/-- The reply of a completed request whose entry is the only one with its tag. -/
theorem finish_link {u : State} {others : List QueueEntry} {e : QueueEntry} (hu : u.dispatcher.queue = others ++ [e])
    (hfresh : ∀ x ∈ others, x.tag ≠ e.tag) (r : ResultCode) (p : List Byte) :
    (u.finish e r p).link = u.link.place (replyOf e r p) := by
  have hfind : u.dispatcher.queue.find? (fun x => x.tag = e.tag) = some e := by
    rw [hu, List.find?_append, List.find?_eq_none.2 (by simpa using hfresh)]; simp
  unfold State.finish State.complete
  simp only [hfind]
  rw [State.placeReply_eq, placing_link]
  rfl

/-! ### The owner's cases -/

theorem roundRelease_same {b : Bay} (hr : (s.account b).residue < 50000000000000) (hp : 0 < (s.account b).pending) :
    s.roundRelease b = s := by
  unfold State.roundRelease
  exact (if_neg (Nat.not_le.2 hr)).trans (if_neg (Nat.pos_iff_ne_zero.1 hp))

theorem roundRelease_drained {b : Bay} (hr : (s.account b).residue < 50000000000000) (hp : (s.account b).pending = 0) :
    s.roundRelease b = s.closeDrained b := by
  unfold State.roundRelease
  exact (if_neg (Nat.not_le.2 hr)).trans (if_pos hp)

theorem serveRelease_bay {e : QueueEntry} {b : Bay} (h : e.payload = [BitVec.ofNat 8 b.val]) :
    s.serveRelease e = s.releaseBay e b := forBay_bay h _

theorem releaseBay_metered {e : QueueEntry} {b : Bay} (ha : (s.bay b).state = .admitted) (hm : (s.account b).metering = .metered) :
    s.releaseBay e b = (releaseBegun s e b).roundRelease b := by
  unfold State.releaseBay
  rw [ha, hm]; dsimp only
  rw [releaseMetered_eq]

theorem releaseBay_unmetered {e : QueueEntry} {b : Bay} (ha : (s.bay b).state = .admitted)
    (hm : (s.account b).metering = .unmetered) : s.releaseBay e b =
      ((s.closeEmpty b).enterReleased b { release := some .ok, rechallenge := some .failed }).finish e .ok
        (releaseReply ((s.closeEmpty b).enterReleased b { release := some .ok, rechallenge := some .failed }) b) := by
  unfold State.releaseBay
  rw [ha, hm]

theorem releaseBay_quarantined {e : QueueEntry} {b : Bay} (ha : (s.bay b).state = .quarantined) :
    s.releaseBay e b = (s.enterReleased b {}).finish e .ok (releaseReply (s.enterReleased b {}) b) := by
  unfold State.releaseBay
  rw [ha]

theorem releaseBay_releasing {e : QueueEntry} {b : Bay} (ha : (s.bay b).state = .releasing) :
    s.releaseBay e b = s.finish e .inProgress [] := by
  unfold State.releaseBay
  rw [ha]

theorem releaseBay_other {e : QueueEntry} {b : Bay} (h1 : (s.bay b).state ≠ .admitted) (h2 : (s.bay b).state ≠ .quarantined)
    (h3 : (s.bay b).state ≠ .releasing) : s.releaseBay e b = s.finish e .state [] := by
  unfold State.releaseBay
  split <;> simp_all

/-- What the closing release of a bay leaves: the bay RELEASED with its account cold, the other bays and accounts as they were. -/
theorem released_of {s u t : State} {b : Bay} (ht : t.bays = (releasedState u b).bays) (hn : t.notice = (releasedState u b).notice)
    (ha : t.accounts = u.accounts) (hb : ∀ c, c ≠ b → u.bay c = s.bay c) (hc : ∀ c, c ≠ b → u.account c = s.account c)
    (hs : u.source .released = s.source .released) : (t.bay b).state = .released ∧
      t.source .released = joined (s.source .released) b ∧ (∀ c, c ≠ b → t.bay c = s.bay c ∧ t.account c = s.account c) := by
  have hbay : ∀ c, t.bay c = (releasedState u b).bay c := fun c => by unfold State.bay; rw [ht]
  refine ⟨by rw [hbay, releasedState_bay], ?_, fun c hcb => ⟨?_, ?_⟩⟩
  · rw [← hs, ← releasedState_source]; unfold State.source; rw [hn]
  · rw [hbay, releasedState_bay_ne _ hcb, hb c hcb]
  · rw [← hc c hcb]; unfold State.account; rw [ha]

/-- R78: half a quantum or more of residue is rounded to a pending quantum where there is room. -/
theorem roundRelease_half {b : Bay} (hr : 50000000000000 ≤ (s.account b).residue) (hm : (s.account b).metering = .metered)
    (hroom : (s.account b).committed + (s.account b).pending < (s.account b).capacity) :
    (s.roundRelease b).bay b = s.bay b ∧ ((s.roundRelease b).account b).residue = 0 ∧
      ((s.roundRelease b).account b).pending = (s.account b).pending + 1 ∧
      ((s.roundRelease b).account b).drain.release = (s.account b).drain.release := by
  obtain ⟨m, d, w, v, l, q, h, -⟩ := (s.setResidue b 0).applyQuanta_only b 1
  have hacc : ((s.setResidue b 0).applyQuanta b 1).account b =
      { ({ s.account b with residue := 0 } : Account).stage7 1 with
        mode := m, drain := { (s.account b).drain with flush := d }, lowNotified := w } := by
    have : ((s.setResidue b 0).accounts)[b] = { s.account b with residue := 0 } := upd_get_same _ _ _
    rw [h]
    exact (upd_get_same _ _ _).trans (by rw [this])
  have hst : ({ s.account b with residue := 0 } : Account).stage7 1 =
      { s.account b with residue := 0, pending := (s.account b).pending + 1, overdraw := addSaturating (s.account b).overdraw 0 } := by
    have : min 1 (({ s.account b with residue := 0 } : Account).remaining) = 1 := by
      unfold Account.remaining; dsimp only; omega
    unfold Account.stage7
    rw [show ({ s.account b with residue := 0 } : Account).metering = .metered from hm]
    dsimp only
    rw [this, hm]
  rw [hst] at hacc
  have hround : s.roundRelease b = (s.setResidue b 0).applyQuanta b 1 := by
    unfold State.roundRelease
    refine (if_pos hr).trans (if_neg ?_)
    rw [hacc]; exact Nat.succ_ne_zero _
  rw [hround, hacc]
  refine ⟨?_, rfl, rfl, rfl⟩
  rw [h]; rfl

/-! ### The clauses of R15 -/

section
variable {tag claimed : Byte} {b : Bay}

/-- The queue entry of a RELEASE just taken. -/
def releaseEntry (s : State) (tag claimed : Byte) (b : Bay) : QueueEntry :=
  entryOf s .release tag claimed [BitVec.ofNat 8 b.val] .owner

theorem serve_release (s : State) (tag claimed : Byte) (b : Bay) :
    (holding s (releaseEntry s tag claimed b)).serve (releaseEntry s tag claimed b) =
      (holding s (releaseEntry s tag claimed b)).releaseBay (releaseEntry s tag claimed b) b := serveRelease_bay rfl

theorem releasing_queue {e : QueueEntry} (hfresh : ∀ x ∈ s.dispatcher.queue, x.tag ≠ e.tag) :
    (releasing (holding s e) e b).dispatcher.queue = s.dispatcher.queue ++ [{ e with wait := .release b }] := by
  have h : (releasing (holding s e) e b).dispatcher.queue = ((holding s e).setWait e.tag (.release b)).dispatcher.queue := rfl
  rw [h, State.setWait_holding hfresh]; rfl

theorem rechallengeReply_counts {t : State} {st : BayState} (h1 : (t.bay b).mismatches = (s.bay b).mismatches)
    (h2 : (t.bay b).commFailures = (s.bay b).commFailures) (h3 : (t.bay b).state = st) :
    rechallengeReply t b = [BitVec.ofNat 8 b.val, st.code] ++
      [BitVec.ofNat 8 (s.bay b).mismatches, BitVec.ofNat 8 (s.bay b).commFailures] := by
  unfold rechallengeReply
  rw [h1, h2, h3]; rfl

/-- Something is left to drain, and no re-challenge waits. -/
theorem release_drains (h : admits s .release tag claimed [BitVec.ofNat 8 b.val]) (ha : (s.bay b).state = .admitted)
    (hm : (s.account b).metering = .metered) (hp : 0 < (s.account b).pending) (hr : (s.account b).residue < 50000000000000)
    (hw : (s.bay b).rechallenge ≠ .waiting) :
    exec (.release tag claimed [BitVec.ofNat 8 b.val]) s = .next (holding
      (withAccount (withBayRec s b { s.bay b with state := .releasing, rechallengeTimer := none }) b
        { s.account b with drain := { (s.account b).drain with release := true } })
      (entryOf s .release tag claimed [BitVec.ofNat 8 b.val] (.release b))) := by
  have hserve := serve_release s tag claimed b
  have htag : (releaseEntry s tag claimed b).tag = tag := rfl
  generalize he : releaseEntry s tag claimed b = e at hserve htag
  have hacc := releaseBegun_account (holding s e) e b
  have hbays : (upd s.bays b fun r : BayRec => { r with
      state := .releasing, rechallengeTimer := none
      rechallenge := if r.rechallenge = .waiting then .idle else r.rechallenge }) =
      s.bays.set b { s.bay b with state := .releasing, rechallengeTimer := none } := by
    refine upd_congr (g := fun _ => { s.bay b with state := .releasing, rechallengeTimer := none }) _ _ ?_
    exact congrArg (fun x => ({ s.bay b with state := .releasing, rechallengeTimer := none, rechallenge := x } : BayRec)) (if_neg hw)
  have hbegun : releaseBegun (holding s e) e b = releasing (holding s e) e b := if_neg hw
  have hx : (holding s e).serve e = (holding
      (withAccount (withBayRec s b { s.bay b with state := .releasing, rechallengeTimer := none }) b
        { s.account b with drain := { (s.account b).drain with release := true } }) e).setWait tag (.release b) := by
    rw [hserve, releaseBay_metered (s := holding s e) ha hm, roundRelease_same (by rw [hacc]; exact hr) (by rw [hacc]; exact hp),
      hbegun]
    unfold releasing withBayRec
    rw [← hbays, htag]
    rfl
  subst he
  exact exec_waits h hx rfl rfl

/-- Something is left to drain, and a re-challenge waits. -/
theorem release_drains_waiting (h : admits s .release tag claimed [BitVec.ofNat 8 b.val]) (ha : (s.bay b).state = .admitted)
    (hm : (s.account b).metering = .metered) (hp : 0 < (s.account b).pending) (hr : (s.account b).residue < 50000000000000)
    (hw : (s.bay b).rechallenge = .waiting) :
    ∃ t, exec (.release tag claimed [BitVec.ofNat 8 b.val]) s = .next t ∧ t.context b = Context.closed ∧
      t.bay b = { s.bay b with state := .releasing, rechallenge := .idle, rechallengeTimer := none, fetchDue := false } ∧
      t.accounts = s.accounts.set b { s.account b with drain := { (s.account b).drain with release := true } } ∧
      (tagsUnique s → ∀ q, (s.dispatcher.queue.filter fun q => q.wait = .rechallenge b) = [q] →
        t.link = (placing s (replyOf q .failed ([BitVec.ofNat 8 b.val, 0x07#8] ++
          [BitVec.ofNat 8 (s.bay b).mismatches, BitVec.ofNat 8 (s.bay b).commFailures]))).link) := by
  have fresh : ∀ x ∈ s.dispatcher.queue, x.tag ≠ (releaseEntry s tag claimed b).tag := h.2.1
  have hserve := serve_release s tag claimed b
  generalize he : releaseEntry s tag claimed b = e at fresh hserve
  have hacc := releaseBegun_account (holding s e) e b
  obtain ⟨t, hexec, ⟨l, n, ht⟩, hone, -⟩ := exec_event h (x := releaseBegun (holding s e) e b) (by
    rw [show entryOf s .release tag claimed [BitVec.ofNat 8 b.val] .owner = e from he, hserve,
      releaseBay_metered (s := holding s e) ha hm, roundRelease_same (by rw [hacc]; exact hr) (by rw [hacc]; exact hp)])
  have hbegun : releaseBegun (holding s e) e b =
      ((releasing (holding s e) e b).endChallenge b).settleWaits b { rechallenge := some .failed } := if_pos hw
  have hbay : (releaseBegun (holding s e) e b).bay b =
      { s.bay b with state := .releasing, rechallenge := .idle, rechallengeTimer := none, fetchDue := false } := by
    rw [releaseBegun_bay, if_pos (show ((holding s e).bay b).rechallenge = .waiting from hw),
      if_pos (show ((holding s e).bay b).rechallenge = .waiting from hw)]
    rfl
  have hq : ((releasing (holding s e) e b).endChallenge b).dispatcher.queue =
      s.dispatcher.queue ++ [{ e with wait := .release b }] := by
    rw [endChallenge_eq]; exact releasing_queue fresh
  refine ⟨t, hexec, ?_, ?_, ?_, fun hu q hf => hone _ ?_⟩
  · rw [ht]
    change (releaseBegun (holding s e) e b).context b = _
    rw [hbegun, settleWaits_context, endChallenge_eq]
    exact upd_get_same _ _ _
  · rw [ht]; exact hbay
  · rw [ht]; exact releaseBegun_accounts (holding s e) e b
  · rw [hbegun, settleWaits_bay] at hbay
    rw [hbegun, settleWaits_rechallenge (q := q)]
    · rw [rechallengeReply_counts (s := s) (st := .releasing) (by rw [hbay]) (by rw [hbay]) (by rw [hbay]), endChallenge_eq]
      rfl
    · unfold tagsUnique at hu ⊢
      rw [hq, List.map_append, List.nodup_append]
      exact ⟨hu, List.nodup_singleton _, by simpa using fresh⟩
    · rw [hq, List.filter_append, hf]; rfl

/-- Half a quantum or more of residue. -/
theorem release_rounds (h : admits s .release tag claimed [BitVec.ofNat 8 b.val]) (ha : (s.bay b).state = .admitted)
    (hm : (s.account b).metering = .metered) (hr : 50000000000000 ≤ (s.account b).residue)
    (hroom : (s.account b).committed + (s.account b).pending < (s.account b).capacity) :
    ∃ t, exec (.release tag claimed [BitVec.ofNat 8 b.val]) s = .next t ∧ (t.bay b).state = .releasing ∧
      (t.account b).residue = 0 ∧ (t.account b).pending = (s.account b).pending + 1 ∧ (t.account b).drain.release = true := by
  have hacc := releaseBegun_account (holding s (releaseEntry s tag claimed b)) (releaseEntry s tag claimed b) b
  obtain ⟨hbay, hres, hpend, hrel⟩ := roundRelease_half (b := b)
    (s := releaseBegun (holding s (releaseEntry s tag claimed b)) (releaseEntry s tag claimed b) b)
    (by rw [hacc]; exact hr) (by rw [hacc]; exact hm) (by rw [hacc]; exact hroom)
  obtain ⟨t, hexec, ⟨l, n, ht⟩, -⟩ := exec_event h ((serve_release s tag claimed b).trans (releaseBay_metered ha hm))
  rw [hacc] at hpend hrel
  rw [releaseBegun_bay] at hbay
  refine ⟨t, hexec, ?_, ?_, ?_, ?_⟩ <;> rw [ht]
  · exact congrArg BayRec.state hbay
  · exact hres
  · exact hpend
  · exact hrel

/-- A QUARANTINED bay. -/
theorem release_quarantined (h : admits s .release tag claimed [BitVec.ofNat 8 b.val]) (ha : (s.bay b).state = .quarantined) :
    ∃ t, exec (.release tag claimed [BitVec.ofNat 8 b.val]) s = .next t ∧ ((t.bay b).state = .released ∧
      t.source .released = joined (s.source .released) b ∧ (∀ c, c ≠ b → t.bay c = s.bay c ∧ t.account c = s.account c)) ∧
      t.accounts = s.accounts ∧
      t.link = (placing s (replyOf (releaseEntry s tag claimed b) .ok [BitVec.ofNat 8 b.val, 0x08#8])).link := by
  have fresh : ∀ x ∈ s.dispatcher.queue, x.tag ≠ (releaseEntry s tag claimed b).tag := h.2.1
  have hserve := serve_release s tag claimed b
  generalize he : releaseEntry s tag claimed b = e at fresh hserve
  obtain ⟨hd, hl, hacc⟩ := releasedState_requests (holding s e) b
  have hnone : (holding s e).enterReleased b {} = releasedState (holding s e) b := settleWaits_none rfl fun q _ => by
    obtain ⟨kind, tag, level, payload, w⟩ := q
    cases w <;> simp [waitEnding]
  have hreply : releaseReply (releasedState (holding s e) b) b = [BitVec.ofNat 8 b.val, 0x08#8] := by
    unfold releaseReply; rw [releasedState_bay]; rfl
  obtain ⟨t, hexec, ⟨l, n, ht⟩, hone, -⟩ := exec_event h
    (x := (releasedState (holding s e) b).finish e .ok [BitVec.ofNat 8 b.val, 0x08#8]) (by
      rw [show entryOf s .release tag claimed [BitVec.ofNat 8 b.val] .owner = e from he, hserve,
        releaseBay_quarantined (s := holding s e) ha, hnone, hreply])
  obtain ⟨l', q', hf⟩ := finish_only (releasedState (holding s e) b) e .ok [BitVec.ofNat 8 b.val, 0x08#8]
  have hlink := finish_link (u := releasedState (holding s e) b) (others := s.dispatcher.queue) (e := e) (by rw [hd]; rfl) fresh .ok
    [BitVec.ofNat 8 b.val, 0x08#8]
  refine ⟨t, hexec, ?_, ?_, hone _ (hlink.trans (by rw [hl]; rfl))⟩
  · rw [ht, hf]
    exact released_of (u := holding s e) rfl rfl hacc (fun _ _ => rfl) (fun _ _ => rfl) rfl
  · rw [ht, hf]; exact hacc

/-- With nothing else waiting on the bay, the RELEASE up to the rounding completes nothing. -/
theorem releaseBegun_requests {e : QueueEntry} (hfresh : ∀ x ∈ s.dispatcher.queue, x.tag ≠ e.tag)
    (hn : ∀ q ∈ s.dispatcher.queue, waitsOn b q.wait = false) :
    (releaseBegun (holding s e) e b).dispatcher.queue = s.dispatcher.queue ++ [{ e with wait := .release b }] ∧
      (releaseBegun (holding s e) e b).link = s.link := by
  unfold releaseBegun
  split
  · have hq : ((releasing (holding s e) e b).endChallenge b).dispatcher.queue =
        s.dispatcher.queue ++ [{ e with wait := .release b }] := by
      rw [endChallenge_eq]; exact releasing_queue hfresh
    rw [settleWaits_rechallenge_none]
    · exact ⟨hq, by rw [endChallenge_eq]; rfl⟩
    · rw [hq]
      intro q hqm hw
      rcases List.mem_append.1 hqm with hqm | hqm
      · have := hn q hqm
        rw [hw] at this
        exact absurd this (by simp [waitsOn])
      · rw [List.mem_singleton.1 hqm] at hw
        exact nomatch hw
  · exact ⟨releasing_queue hfresh, rfl⟩

/-- Nothing is left to drain of a METERED account. -/
theorem release_closes_metered (h : admits s .release tag claimed [BitVec.ofNat 8 b.val]) (ha : (s.bay b).state = .admitted)
    (hm : (s.account b).metering = .metered) (hp : (s.account b).pending = 0) (hr : (s.account b).residue < 50000000000000) :
    ∃ t, exec (.release tag claimed [BitVec.ofNat 8 b.val]) s = .next t ∧ ((t.bay b).state = .released ∧
      t.source .released = joined (s.source .released) b ∧ (∀ c, c ≠ b → t.bay c = s.bay c ∧ t.account c = s.account c)) ∧
      t.account b = Account.cold ∧ (waitingOn s b = [] →
        t.link = (placing s (replyOf (releaseEntry s tag claimed b) .ok [BitVec.ofNat 8 b.val, 0x08#8])).link) := by
  have fresh : ∀ x ∈ s.dispatcher.queue, x.tag ≠ (releaseEntry s tag claimed b).tag := h.2.1
  have hserve := serve_release s tag claimed b
  generalize he : releaseEntry s tag claimed b = e at fresh hserve
  have hacc := releaseBegun_account (holding s e) e b
  have haccs := releaseBegun_accounts (holding s e) e b
  have hbays := fun c hc => releaseBegun_bay_ne (holding s e) e (b := b) (c := c) hc
  have hsrc := releaseBegun_source (holding s e) e b .released
  obtain ⟨t, hexec, ⟨l, n, ht⟩, hone, -⟩ := exec_event h (x := (releaseBegun (holding s e) e b).closeDrained b) (by
    rw [show entryOf s .release tag claimed [BitVec.ofNat 8 b.val] .owner = e from he, hserve,
      releaseBay_metered (s := holding s e) ha hm, roundRelease_drained (by rw [hacc]; exact hr) (by rw [hacc]; exact hp)])
  have hreq := fun hn => releaseBegun_requests (s := s) (b := b) fresh (waitingOn_nil hn)
  generalize releaseBegun (holding s e) e b = y at *
  obtain ⟨hcd, hcl, hcb, hcn, hca⟩ := closeEmpty_requests y b
  obtain ⟨hrd, hrl, hra⟩ := releasedState_requests (y.closeEmpty b) b
  have hacct : ∀ c, c ≠ b → (y.closeEmpty b).account c = s.account c := fun c hc => by
    unfold State.account
    rw [hca, upd_get_ne _ _ hc, haccs, upd_get_ne _ _ hc]; rfl
  refine ⟨t, hexec, ?_, ?_, fun hn => hone _ ?_⟩
  · refine released_of (u := y.closeEmpty b) (by rw [ht]; exact settleWaits_bays b _) (by rw [ht]; exact settleWaits_notice b _)
      (by rw [ht]; exact (settleWaits_accounts b _).trans hra) (fun c hc => ?_) hacct ?_
    · exact (by unfold State.bay; rw [hcb] : (y.closeEmpty b).bay c = y.bay c).trans (hbays c hc)
    · exact (by unfold State.source; rw [hcn] : (y.closeEmpty b).source .released = y.source .released).trans hsrc
  · rw [ht]
    refine (settleWaits_account b b _).trans ?_
    exact (congrArg (fun v : Vector Account 12 => v[b]) (hra.trans hca)).trans (upd_get_same _ _ _)
  · obtain ⟨hq, hl⟩ := hreq hn
    refine (settleWaits_own (u := releasedState (y.closeEmpty b) b) (s := s) (e := { e with wait := .release b })
      (c := { tag := e.tag, result := .ok, payload := releaseReply (releasedState (y.closeEmpty b) b) b })
      (by rw [hrd, hcd, hq]) fresh (waitingOn_nil hn) (fun os => by simp) (by simp [waitEnding]) rfl rfl).trans ?_
    rw [hrl, hcl, hl]
    unfold releaseReply
    rw [releasedState_bay]; rfl

/-- A bay with an UNMETERED account. -/
theorem release_closes_unmetered (h : admits s .release tag claimed [BitVec.ofNat 8 b.val]) (ha : (s.bay b).state = .admitted)
    (hm : (s.account b).metering = .unmetered) :
    ∃ t, exec (.release tag claimed [BitVec.ofNat 8 b.val]) s = .next t ∧ ((t.bay b).state = .released ∧
      t.source .released = joined (s.source .released) b ∧ (∀ c, c ≠ b → t.bay c = s.bay c ∧ t.account c = s.account c)) ∧
      t.account b = Account.cold ∧ (waitingOn s b = [] →
        t.link = (placing s (replyOf (releaseEntry s tag claimed b) .ok [BitVec.ofNat 8 b.val, 0x08#8])).link) ∧
      (tagsUnique s → ∀ q, q.wait = .rechallenge b → waitingOn s b = [q] →
        eitherOrder s t (replyOf q .failed ([BitVec.ofNat 8 b.val, 0x08#8] ++
          [BitVec.ofNat 8 (s.bay b).mismatches, BitVec.ofNat 8 (s.bay b).commFailures]))
          (replyOf (releaseEntry s tag claimed b) .ok [BitVec.ofNat 8 b.val, 0x08#8])) := by
  have fresh : ∀ x ∈ s.dispatcher.queue, x.tag ≠ (releaseEntry s tag claimed b).tag := h.2.1
  have hserve := serve_release s tag claimed b
  have howner : (releaseEntry s tag claimed b).wait = .owner := rfl
  generalize he : releaseEntry s tag claimed b = e at fresh hserve howner
  obtain ⟨hcd, hcl, hcb, hcn, hca⟩ := closeEmpty_requests (holding s e) b
  obtain ⟨hrd, hrl, hra⟩ := releasedState_requests ((holding s e).closeEmpty b) b
  have hrb := releasedState_bay ((holding s e).closeEmpty b) b
  have hreply : releaseReply (((holding s e).closeEmpty b).enterReleased b { release := some .ok, rechallenge := some .failed }) b =
      [BitVec.ofNat 8 b.val, 0x08#8] := by
    unfold releaseReply
    rw [enterReleased_eq, settleWaits_bay, hrb]; rfl
  have hcbay : ∀ c, ((holding s e).closeEmpty b).bay c = s.bay c := fun c => by unfold State.bay; rw [hcb]; rfl
  obtain ⟨t, hexec, ⟨l, n, ht⟩, hone, htwo⟩ := exec_event h
    (x := (((holding s e).closeEmpty b).enterReleased b { release := some .ok, rechallenge := some .failed }).finish e .ok
      [BitVec.ofNat 8 b.val, 0x08#8]) (by
      rw [show entryOf s .release tag claimed [BitVec.ofNat 8 b.val] .owner = e from he, hserve,
        releaseBay_unmetered (s := holding s e) ha hm, hreply])
  obtain ⟨l', q', hf⟩ := finish_only (((holding s e).closeEmpty b).enterReleased b
    { release := some .ok, rechallenge := some .failed }) e .ok [BitVec.ofNat 8 b.val, 0x08#8]
  rw [hf] at ht
  have hqueue : (releasedState ((holding s e).closeEmpty b) b).dispatcher.queue = s.dispatcher.queue ++ [e] := by
    rw [hrd, hcd]; rfl
  have hlink : (releasedState ((holding s e).closeEmpty b) b).link = s.link := by rw [hrl, hcl]; rfl
  refine ⟨t, hexec, ?_, ?_, fun hn => hone _ ?_, fun hu q hqw hn => htwo _ _ ?_⟩
  · refine released_of (u := (holding s e).closeEmpty b) (by rw [ht]; exact settleWaits_bays b _)
      (by rw [ht]; exact settleWaits_notice b _) (by rw [ht]; exact (settleWaits_accounts b _).trans hra) (fun c _ => hcbay c)
      (fun c hc => ?_) ?_
    · unfold State.account
      rw [hca, upd_get_ne _ _ hc]; rfl
    · unfold State.source; rw [hcn]; rfl
  · rw [ht]
    refine (settleWaits_account b b _).trans ?_
    exact (congrArg (fun v : Vector Account 12 => v[b]) (hra.trans hca)).trans (upd_get_same _ _ _)
  · have hnone : ((holding s e).closeEmpty b).enterReleased b { release := some .ok, rechallenge := some .failed } =
        releasedState ((holding s e).closeEmpty b) b := by
      rw [enterReleased_eq]
      refine settleWaits_of_not_waitsOn _ fun q hq => ?_
      rw [hqueue, List.mem_append, List.mem_singleton] at hq
      rcases hq with hq | rfl
      · exact waitingOn_nil hn q hq
      · rw [howner]; rfl
    rw [hnone, finish_link hqueue fresh, hlink]
  · have hpick : ∀ x ∈ (releasedState ((holding s e).closeEmpty b) b).dispatcher.queue,
        waitEnding (releasedState ((holding s e).closeEmpty b) b) b { release := some .ok, rechallenge := some .failed } x =
        if waitsOn b x.wait then some { tag := x.tag, result := .failed
                                        payload := rechallengeReply (releasedState ((holding s e).closeEmpty b) b) b } else none := by
      intro x hx
      by_cases hw : waitsOn b x.wait = true
      · rw [if_pos hw]
        rw [hqueue, List.mem_append, List.mem_singleton] at hx
        rcases hx with hx | rfl
        · have hxq : x ∈ waitingOn s b := List.mem_filter.2 ⟨hx, hw⟩
          rw [hn, List.mem_singleton] at hxq
          rw [hxq]
          simp [waitEnding, hqw]
        · rw [howner] at hw; exact nomatch hw
      · rw [if_neg hw]
        exact waitEnding_of_not_waitsOn _ _ (by simpa using hw)
    have hu' : tagsUnique (releasedState ((holding s e).closeEmpty b) b) := by
      unfold tagsUnique at hu ⊢
      rw [hqueue, List.map_append, List.nodup_append]
      exact ⟨hu, List.nodup_singleton _, by simpa using fresh⟩
    have hl := settleWaits_picks (fun x => waitsOn b x.wait) _ rfl hu' hpick
    have hfilter : (s.dispatcher.queue ++ [e]).filter (fun x => waitsOn b x.wait) = [q] := by
      rw [List.filter_append, show s.dispatcher.queue.filter (fun x => waitsOn b x.wait) = [q] from hn,
        List.filter_cons_of_neg (by rw [howner]; exact Bool.false_ne_true)]
      rfl
    rw [hqueue, hfilter, hlink] at hl
    have hq2 := congrArg (fun x => x.dispatcher.queue) (State.settleWaits_unique _ hu' b
      { release := some .ok, rechallenge := some .failed } (.inl rfl))
    have hown : waitEnding (releasedState ((holding s e).closeEmpty b) b) b { release := some .ok, rechallenge := some .failed } e =
        none := waitEnding_of_not_waitsOn _ _ (by rw [howner]; rfl)
    rw [hqueue, List.map_append, List.map_singleton, hown] at hq2
    refine (finish_link hq2 (fun x hx => ?_) _ _).trans (congrArg (Link.place · _) (hl.trans ?_))
    · obtain ⟨y, hy, rfl⟩ := List.mem_map.1 hx
      have := fresh y hy
      split <;> exact this
    · rw [rechallengeReply_counts (s := s) (st := .released) (by rw [hrb, hcbay]) (by rw [hrb, hcbay]) (by rw [hrb])]
      rfl

end

/-- Settles O46: the owner's cases, the replies by what waits on the bay. -/
theorem releaseDrainsOrCompletes : Obligations.ReleaseDrainsOrCompletes := by
  intro s tag claimed b bay p a counts ok released h
  have closes : (s.bay b).state = .admitted →
      a.metering = .unmetered ∨ (a.metering = .metered ∧ a.pending = 0 ∧ a.residue < 50000000000000) →
      ∃ t, exec (.release tag claimed p) s = .next t ∧ released t ∧ t.account b = Account.cold ∧
        (waitingOn s b = [] → t.link = (placing s ok).link) ∧
        (tagsUnique s → ∀ q, q.wait = .rechallenge b → waitingOn s b = [q] → a.metering = .unmetered →
          eitherOrder s t (replyOf q .failed ([bay, 0x08#8] ++ counts)) ok) := by
    rintro ha (hm | ⟨hm, hp, hr⟩)
    · obtain ⟨t, hexec, hrel, hcold, hone, htwo⟩ := release_closes_unmetered h ha hm
      exact ⟨t, hexec, hrel, hcold, hone, fun hu q hq hn _ => htwo hu q hq hn⟩
    · obtain ⟨t, hexec, hrel, hcold, hone⟩ := release_closes_metered h ha hm hp hr
      exact ⟨t, hexec, hrel, hcold, hone, fun _ _ _ _ hun => Metering.noConfusion (hm.symm.trans hun)⟩
  refine ⟨fun ha hm hp hr => ⟨fun hw => release_drains h ha hm hp hr hw, fun hw => release_drains_waiting h ha hm hp hr hw⟩,
    fun ha hm hr hroom => release_rounds h ha hm hr hroom, closes, fun ha => release_quarantined h ha,
    fun ha => exec_refuses h ((serve_release s tag claimed b).trans (releaseBay_releasing ha)),
    fun h1 h2 h3 => exec_refuses h ((serve_release s tag claimed b).trans (releaseBay_other h1 h2 h3))⟩

end Sys2Proof.Machine
end

section
/-! PROOF. LEVEL-SENSE (R113 to R117). -/

namespace Sys2Proof.Machine

open Sys2Proof.Safety

variable {s : State}

/-- A taken request whose owner makes `u` of the state, placing no reply, and completes it. -/
theorem exec_finishes {k : RequestKind} {tag claimed : Byte} {p : List Byte} {u : State} {r : ResultCode} {reply : List Byte}
    (h : admits s k tag claimed p)
    (hu : (holding s (entryOf s k tag claimed p .owner)).serve (entryOf s k tag claimed p .owner) =
      u.finish (entryOf s k tag claimed p .owner) r reply)
    (hq : u.dispatcher.queue = s.dispatcher.queue ++ [entryOf s k tag claimed p .owner]) (hl : u.link = s.link) :
    ∃ t, exec (requestOf k tag claimed p) s = .next t ∧
      (∃ l n q, t = { u with link := l, free := n, dispatcher := { u.dispatcher with queue := q } }) ∧
      t.link = (placing s (replyOf (entryOf s k tag claimed p .owner) r reply)).link := by
  obtain ⟨t, hexec, ⟨l, n, ht⟩, hone, -⟩ := exec_event h hu
  obtain ⟨l', q', hf⟩ := finish_only u (entryOf s k tag claimed p .owner) r reply
  exact ⟨t, hexec, ⟨l, n, q', by rw [ht, hf]⟩, hone _ ((finish_link hq h.2.1 _ _).trans (by rw [hl]))⟩

/-- A list of one pair is disposed as the pair is (R113). -/
theorem serveLevelSense_one {e : QueueEntry} {b : Bay} {code : Byte} {r : Reading} (hr : readingOfByte code = some r)
    (hp : e.payload = [0x01#8, BitVec.ofNat 8 b.val, code]) :
    s.serveLevelSense e = (s.sensePair b r).1.finish e .ok (0x01#8 :: (s.sensePair b r).2) := by
  have items : readList 2 1 12 e.payload = some [[BitVec.ofNat 8 b.val, code]] := by rw [hp]; rfl
  have pair : readPair [BitVec.ofNat 8 b.val, code] = some (b, r) := by
    unfold readPair
    rw [show byteAt [BitVec.ofNat 8 b.val, code] 0 = BitVec.ofNat 8 b.val from rfl,
      show byteAt [BitVec.ofNat 8 b.val, code] 1 = code from rfl, bayOfByte_bay, hr]
  have pairs : allSome ([[BitVec.ofNat 8 b.val, code]].map readPair) = some [(b, r)] := by
    rw [List.map_cons, pair]; rfl
  unfold State.serveLevelSense
  rw [items]; dsimp only
  rw [pairs]; dsimp only [State.sensePairs]
  rw [List.append_nil]; rfl

/-- The queue entry of a LEVEL-SENSE of one pair just taken. -/
def senseEntry (s : State) (tag claimed : Byte) (b : Bay) (code : Byte) : QueueEntry :=
  entryOf s .levelSense tag claimed [0x01#8, BitVec.ofNat 8 b.val, code] .owner

theorem serve_levelSense (s : State) (tag claimed : Byte) (b : Bay) {code : Byte} {r : Reading} (hr : readingOfByte code = some r) :
    (holding s (senseEntry s tag claimed b code)).serve (senseEntry s tag claimed b code) =
      ((holding s (senseEntry s tag claimed b code)).sensePair b r).1.finish (senseEntry s tag claimed b code) .ok
        (0x01#8 :: ((holding s (senseEntry s tag claimed b code)).sensePair b r).2) :=
  serveLevelSense_one (s := holding s _) (e := senseEntry s tag claimed b code) hr rfl

theorem senseCounts_of {b : Bay} (ha : (s.bay b).state = .admitted) (hl : (s.account b).live = true)
    (hm : (s.account b).metering = .metered) (hc : (s.account b).committed = (s.account b).capacity) :
    senseCounts (s.bay b) (s.account b) = true := by
  simp [senseCounts, Account.liveMetered, ha, hl, hm, hc]

theorem placeOrder_eq (m : Mark) (os : List MarkOrder) :
    placeOrder m os = if ∃ o ∈ os, o.mark = m then os else os ++ [{ mark := m, attempts := 0 }] := by
  unfold placeOrder
  exact if_congr (by simp) rfl rfl

/-- R134: the report of a confirmation changes the entry, the mark orders, REFILL's source and the append set. -/
theorem reportRefill_only (s : State) (b : Bay) (x : Serial) : ∃ j c, s.reportRefill b x = { s with
      refill := { s.refill with
        table := s.refill.table.map fun e => if e.serial = x then { e with lastVerdict := .refilled } else e }
      journal := { s.journal with appendSet := j, copyStale := c }
      orders := upd s.orders b (placeOrder .refill)
      notice := { s.notice with
        sources := upd s.notice.sources NoticeKind.refill.index fun x => { x with bays := x.bays ||| (1#12 <<< b.val) } } } := by
  obtain ⟨j, c, h⟩ := (s.modEntry x fun e => { e with lastVerdict := .refilled }).joinSet_only x
  refine ⟨j, c, ?_⟩
  unfold State.reportRefill
  rw [h]; rfl

/-- R115: a confirmation under ACCEPT, by field. -/
theorem confirmAccept_only (s : State) {b : Bay} {x : Serial} (hx : s.serialRead b = some x) : ∃ j c, s.confirmAccept b = { s with
      accounts := upd s.accounts b fun a =>
        { a with
          residue := 0, metering := .unmetered, unmeteredCount := 0, senseCount := 0
          drain := { flush := false, release := false, save := false } }
      bays := upd s.bays b fun r => { r with verdict := .refilled }
      refill := { s.refill with
        table := s.refill.table.map fun e => if e.serial = x then { e with lastVerdict := .refilled } else e }
      journal := { s.journal with appendSet := j, copyStale := c }
      orders := upd s.orders b (placeOrder .refill)
      notice := { s.notice with
        sources := upd s.notice.sources NoticeKind.refill.index fun x => { x with bays := x.bays ||| (1#12 <<< b.val) } } } := by
  obtain ⟨j, c, h⟩ := reportRefill_only (s.modAccount b fun a =>
    { a with
      residue := 0, metering := .unmetered, unmeteredCount := 0, senseCount := 0
      drain := { flush := false, release := false, save := false } }) b x
  refine ⟨j, c, ?_⟩
  unfold State.confirmAccept State.reportFor
  dsimp only
  rw [show (s.modAccount b _).serialRead b = some x from hx]
  dsimp only
  rw [h]; rfl

/-- R116: a confirmation under REFUSE, before the RECHALLENGE that waits is failed. -/
theorem confirmRefuse_only (s : State) {b : Bay} {x : Serial} (hx : s.serialRead b = some x) : ∃ u : State,
    s.confirmRefuse b =
      u.settleWaits b { rechallenge := some .failed } ∧ ∃ j c, u = { s with
      accounts := upd s.accounts b fun _ => Account.cold
      bays := upd s.bays b fun r =>
        { r with
          verdict := .refilled, fetchDue := false, state := .quarantined, rejectReason := .none, rechallenge := .idle
          rechallengeTimer := none }
      ports := upd s.ports b endedPort, buses := upd s.buses (busOf b) (endedBus b)
      digest := { s.digest.dropJob b with contexts := upd s.digest.contexts b fun _ => Context.closed }
      refill := { s.refill with
        table := s.refill.table.map fun e => if e.serial = x then { e with lastVerdict := .refilled } else e }
      journal := { s.journal with appendSet := j, copyStale := c }
      orders := upd s.orders b (placeOrder .refill)
      notice := { s.notice with
        sources := upd s.notice.sources NoticeKind.refill.index fun x => { x with bays := x.bays ||| (1#12 <<< b.val) } } } := by
  obtain ⟨j, c, h1⟩ := s.closeEmpty_only b
  obtain ⟨j', c', h2⟩ := reportRefill_only (s.closeEmpty b) b x
  refine ⟨_, rfl, j', c', ?_⟩
  unfold State.reportFor
  rw [show (s.closeEmpty b).serialRead b = some x by rw [h1]; exact hx]
  dsimp only
  rw [h2, h1, leaveTo_eq]
  simp only [State.setVerdict, State.modBay, upd_upd]

theorem sensePair_counts {b : Bay} (h : senseCounts (s.bay b) (s.account b) = true) : s.sensePair b .present = s.sensePresent b := by
  unfold State.sensePair; exact if_pos h

theorem sensePair_cleared {b : Bay} (h : senseCounts (s.bay b) (s.account b) = true) (hn : 0 < (s.account b).senseCount) :
    s.sensePair b .low = (s.modAccount b fun a => { a with senseCount := 0 }, pairReply b 0 .cleared) := by
  unfold State.sensePair; exact (if_pos h).trans (if_pos hn)

theorem sensePair_leak {b : Bay} (h : ¬senseCounts (s.bay b) (s.account b) = true)
    (hl : leakSuspected (s.bay b) (s.account b) = true) :
    s.sensePair b .dry = (s.raise .leakSuspect b, pairReply b (s.account b).senseCount .leak) := by
  unfold State.sensePair; exact (if_neg h).trans (if_pos (by simp [hl]))

theorem sensePresent_counted {b : Bay} (h : (s.account b).senseCount + 1 < s.settings.senseConfirm) : s.sensePresent b =
    (s.modAccount b fun a => { a with senseCount := (s.account b).senseCount + 1 },
      pairReply b ((s.account b).senseCount + 1) .counted) := by
  unfold State.sensePresent; exact if_pos h

theorem sensePresent_accept {b : Bay} (h : s.settings.senseConfirm ≤ (s.account b).senseCount + 1)
    (ht : s.settings.tolerance = .accept) : s.sensePresent b = (s.confirmAccept b, pairReply b 0 .confirmed) := by
  unfold State.sensePresent
  rw [if_neg (Nat.not_lt.2 h), ht]

theorem sensePresent_refuse {b : Bay} (h : s.settings.senseConfirm ≤ (s.account b).senseCount + 1)
    (ht : s.settings.tolerance = .refuse) :
    s.sensePresent b = (s.confirmRefuse b, pairReply b ((s.account b).senseCount + 1) .confirmed) := by
  unfold State.sensePresent
  rw [if_neg (Nat.not_lt.2 h), ht]

/-- The entry's verdict after a report, and the mark orders, REFILL's source and the other bays. -/
theorem report_fields {u : State} {b : Bay} {x : Serial}
    (ht : u.refill.table = s.refill.table.map fun e => if e.serial = x then { e with lastVerdict := .refilled } else e)
    (ho : u.orders = upd s.orders b (placeOrder .refill))
    (hs : u.notice.sources = upd s.notice.sources NoticeKind.refill.index fun x => { x with bays := x.bays ||| (1#12 <<< b.val) })
    {f : BayRec → BayRec} {g : Account → Account} (hb : u.bays = upd s.bays b f) (ha : u.accounts = upd s.accounts b g) :
    u.entry x = (s.entry x).map (fun h => { h with lastVerdict := .refilled }) ∧
      u.markOrders b = (if ∃ o ∈ s.markOrders b, o.mark = .refill then s.markOrders b
        else s.markOrders b ++ [{ mark := .refill, attempts := 0 }]) ∧
      u.source .refill = joined (s.source .refill) b ∧
      ∀ d, d ≠ b → u.bay d = s.bay d ∧ u.account d = s.account d ∧ u.markOrders d = s.markOrders d := by
  refine ⟨?_, ?_, ?_, fun d hd => ⟨?_, ?_, ?_⟩⟩
  · have h := s.entry_modEntry x (fun e => { e with lastVerdict := .refilled }) fun _ => rfl
    unfold State.entry at h ⊢
    rw [ht]; exact h
  · rw [← placeOrder_eq]
    unfold State.markOrders
    rw [ho]; exact upd_get_same _ _ _
  · unfold State.source
    rw [hs]; exact upd_get_same _ _ _
  · unfold State.bay
    rw [hb]; exact upd_get_ne _ _ hd
  · unfold State.account
    rw [ha]; exact upd_get_ne _ _ hd
  · unfold State.markOrders
    rw [ho]; exact upd_get_ne _ _ hd

/-- Settles O44: one pair's cases; a confirmation under either tolerance by field. -/
theorem levelSensePairsAreDisposed : Obligations.LevelSensePairsAreDisposed := by
  intro s tag claimed b hl hm bay
  refine ⟨fun h ha hc hn => ?_, fun h ha hc hn => ?_, fun h hd hlev hc => ?_, fun h ha hc hn x hx => ?_⟩
  · refine exec_answers (t := s.modAccount b fun a => { a with senseCount := (s.account b).senseCount + 1 }) h ?_ rfl rfl
    refine (serve_levelSense s tag claimed b (r := .present) rfl).trans ?_
    rw [sensePair_counts (s := holding s (senseEntry s tag claimed b 0x02#8)) (senseCounts_of ha hl hm hc),
      sensePresent_counted (s := holding s (senseEntry s tag claimed b 0x02#8)) hn]; rfl
  · refine exec_answers (t := s.modAccount b fun a => { a with senseCount := 0 }) h ?_ rfl rfl
    refine (serve_levelSense s tag claimed b (r := .low) rfl).trans ?_
    rw [sensePair_cleared (s := holding s (senseEntry s tag claimed b 0x01#8)) (senseCounts_of ha hl hm hc) hn]; rfl
  · refine exec_answers (t := s.raise .leakSuspect b) h ?_ rfl rfl
    refine (serve_levelSense s tag claimed b (r := .dry) rfl).trans ?_
    rw [sensePair_leak (s := holding s (senseEntry s tag claimed b 0x00#8)) ]
    · rfl
    · change ¬senseCounts (s.bay b) (s.account b) = true
      simp [senseCounts, hc]
    · change leakSuspected (s.bay b) (s.account b) = true
      simp [leakSuspected, Account.liveMetered, hd, hl, hm, Config.leakLevel, hlev]
  · intro e
    have counts := senseCounts_of ha hl hm hc
    cases htol : s.settings.tolerance with
    | accept =>
      obtain ⟨j, c, hacc⟩ := confirmAccept_only (holding s e) (b := b) hx
      obtain ⟨t, hexec, ⟨l, n, q, ht⟩, hlink⟩ := exec_finishes (u := (holding s e).confirmAccept b) (r := .ok)
        (reply := [0x01#8, bay, 0x00#8, 0x03#8]) h (by
          refine (serve_levelSense s tag claimed b (r := .present) rfl).trans ?_
          rw [sensePair_counts (s := holding s (senseEntry s tag claimed b 0x02#8)) counts,
            sensePresent_accept (s := holding s (senseEntry s tag claimed b 0x02#8)) hn htol]; rfl) (by rw [hacc]; rfl) (by rw [hacc]; rfl)
      rw [hacc] at ht
      obtain ⟨h1, h2, h3, h4⟩ := report_fields (u := t) (s := s) (b := b) (x := x) (by rw [ht]; rfl) (by rw [ht]; rfl) (by rw [ht]; rfl)
        (f := fun r => { r with verdict := .refilled }) (g := fun a =>
          { a with
            residue := 0, metering := .unmetered, unmeteredCount := 0, senseCount := 0
            drain := { flush := false, release := false, save := false } }) (by rw [ht]; rfl) (by rw [ht]; rfl)
      refine ⟨t, hexec, h1, h2, h3, h4, fun _ => ⟨?_, ?_, hlink⟩, fun k => nomatch k⟩
      · rw [ht]; exact upd_get_same _ _ _
      · rw [ht]; exact upd_get_same _ _ _
    | refuse =>
      have fresh : ∀ x ∈ s.dispatcher.queue, x.tag ≠ e.tag := h.2.1
      obtain ⟨u, hu, j, c, hacc⟩ := confirmRefuse_only (holding s e) (b := b) hx
      have hserve : (holding s e).serve e = ((u.settleWaits b { rechallenge := some .failed }).finish e .ok
          [0x01#8, bay, BitVec.ofNat 8 ((s.account b).senseCount + 1), 0x03#8]) := by
        refine (serve_levelSense s tag claimed b (r := .present) rfl).trans ?_
        rw [sensePair_counts (s := holding s (senseEntry s tag claimed b 0x02#8)) counts,
          sensePresent_refuse (s := holding s (senseEntry s tag claimed b 0x02#8)) hn htol, ← hu]; rfl
      obtain ⟨t, hexec, ⟨l, n, ht⟩, hone, htwo⟩ := exec_event h hserve
      obtain ⟨l', q', hf⟩ := finish_only (u.settleWaits b { rechallenge := some .failed }) e .ok
        [0x01#8, bay, BitVec.ofNat 8 ((s.account b).senseCount + 1), 0x03#8]
      obtain ⟨l'', q'', hw⟩ := u.settleWaits_only b { rechallenge := some .failed }
      rw [hf, hw, hacc] at ht
      obtain ⟨h1, h2, h3, h4⟩ := report_fields (u := t) (s := s) (b := b) (x := x) (by rw [ht]; rfl) (by rw [ht]; rfl) (by rw [ht]; rfl)
        (f := fun r => { r with
          verdict := .refilled, fetchDue := false, state := .quarantined, rejectReason := .none, rechallenge := .idle
          rechallengeTimer := none }) (g := fun _ => Account.cold) (by rw [ht]; rfl) (by rw [ht]; rfl)
      have hqueue : u.dispatcher.queue = s.dispatcher.queue ++ [e] := by rw [hacc]; rfl
      have hlink : u.link = s.link := by rw [hacc]; rfl
      refine ⟨t, hexec, h1, h2, h3, h4, fun k => (nomatch k), fun _ => ⟨?_, ?_, ?_, fun hnone => hone _ ?_, fun huniq q hq => ?_⟩⟩
      · rw [ht]; exact upd_get_same _ _ _
      · rw [ht]; exact upd_get_same _ _ _
      · rw [ht]; exact upd_get_same _ _ _
      · rw [settleWaits_rechallenge_none, finish_link hqueue fresh, hlink]
        intro q hq
        rw [hqueue, List.mem_append, List.mem_singleton] at hq
        rcases hq with hq | rfl
        · exact hnone q hq
        · exact fun k => nomatch k
      · have hu' : tagsUnique u := by
          unfold tagsUnique at huniq ⊢
          rw [hqueue, List.map_append, List.nodup_append]
          exact ⟨huniq, List.nodup_singleton _, by simpa using fresh⟩
        have hfilter : (u.dispatcher.queue.filter fun q => q.wait = .rechallenge b) = [q] := by
          rw [hqueue, List.filter_append, hq]; rfl
        have hbay : u.bay b = { s.bay b with
            verdict := .refilled, fetchDue := false, state := .quarantined, rejectReason := .none, rechallenge := .idle
            rechallengeTimer := none } := by rw [hacc]; exact upd_get_same _ _ _
        have hq2 := congrArg (fun x => x.dispatcher.queue) (u.settleWaits_unique hu' b { rechallenge := some .failed } (.inl rfl))
        have hown : waitEnding u b { rechallenge := some .failed } e = none := by
          rw [waitEnding_rechallenge]; exact if_neg fun k => nomatch k
        rw [hqueue, List.map_append, List.map_singleton, hown] at hq2
        refine Or.symm (htwo _ _ ((finish_link hq2 (fun x hx => ?_) _ _).trans (congrArg (Link.place · _)
          ((settleWaits_rechallenge hu' hfilter).trans ?_))))
        · obtain ⟨y, hy, rfl⟩ := List.mem_map.1 hx
          have := fresh y hy
          split <;> exact this
        · rw [hlink, rechallengeReply_counts (s := s) (st := .quarantined) (by rw [hbay]) (by rw [hbay]) (by rw [hbay])]
          rfl

end Sys2Proof.Machine
end

section
/-! PROOF. The settings that decide every account's mode: SET-BANDS, HOLD and the default mode (R87, R88, R90). -/

namespace Sys2Proof.Machine

open Sys2Proof.Safety

variable {s : State}

/-! ### The recomputation of every live account's mode -/

/-- An account with its mode recomputed; entering FROZEN clears the FLUSH demand (R90). -/
def remoded (x : Settings) (d : Bool) (a : Account) : Account :=
  { a with mode := effectiveMode x a, drain := { a.drain with flush := d } }

theorem remoded_remoded (x : Settings) (d d' : Bool) (a : Account) : remoded x d (remoded x d' a) = remoded x d a := rfl

theorem recomputeModeEvent_only (s : State) (b : Bay) : ∃ d v l q, s.recomputeModeEvent b = { s with
      accounts := upd s.accounts b (remoded s.settings d)
      notice := { s.notice with sources := v }
      link := l, dispatcher := { s.dispatcher with queue := q } } := by
  obtain ⟨d, l, q, h⟩ := s.recomputeMode_only b
  obtain ⟨v, h', -⟩ := (s.recomputeMode b).raiseIf_only
    (((s.recomputeMode b).bay b).state = .admitted && decide (0 < s.allowance b) && (s.recomputeMode b).allowance b = 0)
    .allowanceExhausted b
  refine ⟨d, v, l, q, ?_⟩
  unfold State.recomputeModeEvent State.allowanceChecked
  dsimp only
  rw [h', h]
  rfl

/-- The recomputation at some bays: each live account there is recomputed, and nothing else of the accounts changes. -/
theorem foldl_recompute (bs : List Bay) : ∀ s : State, ∃ a v l q,
    bs.foldl (fun s b => if (s.account b).live then s.recomputeModeEvent b else s) s = { s with
      accounts := a, notice := { s.notice with sources := v }, link := l, dispatcher := { s.dispatcher with queue := q } } ∧
    ∀ b : Bay, (b ∉ bs ∨ (s.account b).live = false → a[b] = s.account b) ∧
      (b ∈ bs → (s.account b).live = true → ∃ d, a[b] = remoded s.settings d (s.account b)) := by
  induction bs with
  | nil => exact fun s => ⟨_, _, _, _, rfl, fun b => ⟨fun _ => rfl, fun h => nomatch h⟩⟩
  | cons c bs ih =>
    intro s
    rw [List.foldl_cons]
    cases hl : (s.account c).live with
    | false =>
      rw [if_neg Bool.false_ne_true]
      obtain ⟨a, v, l, q, h, ha⟩ := ih s
      refine ⟨a, v, l, q, h, fun b => ⟨fun hb => ?_, fun hb hlb => ?_⟩⟩
      · exact (ha b).1 (hb.imp_left fun k j => k (List.mem_cons_of_mem _ j))
      · rcases List.mem_cons.1 hb with rfl | hb
        · exact nomatch hl.symm.trans hlb
        · exact (ha b).2 hb hlb
    | true =>
      rw [if_pos rfl]
      obtain ⟨d, v1, l1, q1, h1⟩ := recomputeModeEvent_only s c
      rw [h1]
      obtain ⟨a, v, l, q, h, ha⟩ := ih { s with
        accounts := upd s.accounts c (remoded s.settings d), notice := { s.notice with sources := v1 }
        link := l1, dispatcher := { s.dispatcher with queue := q1 } }
      have hc : (upd s.accounts c (remoded s.settings d))[c] = remoded s.settings d (s.account c) := upd_get_same _ _ _
      have hne : ∀ b, b ≠ c → (upd s.accounts c (remoded s.settings d))[b] = s.account b := fun b hb => upd_get_ne _ _ hb
      refine ⟨a, v, l, q, h, fun b => ⟨fun hb => ?_, fun hb hlb => ?_⟩⟩
      · have hbc : b ≠ c := by
          rintro rfl
          rcases hb with hb | hb
          · exact hb (List.mem_cons_self ..)
          · exact nomatch hl.symm.trans hb
        refine ((ha b).1 (hb.imp (fun k j => k (List.mem_cons_of_mem _ j)) fun k => ?_)).trans (hne b hbc)
        exact (congrArg Account.live (hne b hbc)).trans k
      · by_cases hbc : b = c
        · subst hbc
          by_cases hm : b ∈ bs
          · obtain ⟨d', hd'⟩ := (ha b).2 hm ((congrArg Account.live hc).trans hlb)
            exact ⟨d', hd'.trans ((congrArg (remoded s.settings d') hc).trans (remoded_remoded ..))⟩
          · exact ⟨d, ((ha b).1 (.inl hm)).trans hc⟩
        · have hm : b ∈ bs := (List.mem_cons.1 hb).resolve_left hbc
          obtain ⟨d', hd'⟩ := (ha b).2 hm ((congrArg Account.live (hne b hbc)).trans hlb)
          exact ⟨d', hd'.trans (congrArg (remoded s.settings d') (hne b hbc))⟩

theorem mem_allBays (b : Bay) : b ∈ allBays := by revert b; decide

theorem recomputeAllModes_only (s : State) : ∃ a v l q, s.recomputeAllModes = { s with
      accounts := a, notice := { s.notice with sources := v }, link := l, dispatcher := { s.dispatcher with queue := q } } ∧
    ∀ b : Bay, ((s.account b).live = false → a[b] = s.account b) ∧
      ((s.account b).live = true → ∃ d, a[b] = remoded s.settings d (s.account b)) := by
  obtain ⟨a, v, l, q, h, ha⟩ := foldl_recompute allBays s
  exact ⟨a, v, l, q, h, fun b => ⟨fun hb => (ha b).1 (.inr hb), (ha b).2 (mem_allBays b)⟩⟩

/-! ### The payloads -/

theorem elements_flatMap {α : Type} {size : Nat} {f : α → List Byte} (l : List α) (hf : ∀ x ∈ l, (f x).length = size) :
    elements size l.length (l.flatMap f) = l.map f := by
  induction l with
  | nil => rfl
  | cons x l ih =>
    have hx := hf x (List.mem_cons_self ..)
    rw [List.length_cons, elements, List.flatMap_cons, List.map_cons, ← ih fun y hy => hf y (List.mem_cons_of_mem _ hy), ← hx,
      List.take_left, List.drop_left]

theorem allSome_map_some {α β : Type} {f : α → Option β} {g : α → β} (l : List α) (h : ∀ x ∈ l, f x = some (g x)) :
    allSome (l.map f) = some (l.map g) := by
  induction l with
  | nil => rfl
  | cons x l ih =>
    rw [List.map_cons, h x (List.mem_cons_self ..), allSome, ih fun y hy => h y (List.mem_cons_of_mem _ hy)]; rfl

/-- 12.1: the five bytes of a band. -/
def printerBandBytes (d : PrinterBand) : List Byte := beBytes 2 d.low ++ beBytes 2 d.high ++ [BitVec.ofNat 8 d.mode.rank]

theorem readPrinterBand_bytes {d : PrinterBand} (hl : d.low ≤ d.high) (hh : d.high < 65536) :
    readPrinterBand (printerBandBytes d) = some d := by
  have h0 : beNat (slice (printerBandBytes d) 0 2) = d.low := beNat_beBytes_of_lt (n := 2) (by omega)
  have h2 : beNat (slice (printerBandBytes d) 2 2) = d.high := beNat_beBytes_of_lt (n := 2) hh
  have h4 : modeOfByte (byteAt (printerBandBytes d) 4) = some d.mode := by
    have : ∀ m : Mode, modeOfByte (BitVec.ofNat 8 m.rank) = some m := by intro m; cases m <;> decide
    exact this d.mode
  unfold readPrinterBand
  rw [h4, h0, h2]
  exact if_pos hl

theorem readBands_payload {bands : List PrinterBand} (hn : bands.length ≤ 4) (hb : ∀ d ∈ bands, d.low ≤ d.high ∧ d.high < 65536) :
    ∃ items, readList 5 0 4 (BitVec.ofNat 8 bands.length :: bands.flatMap printerBandBytes) = some items ∧
      allSome (items.map readPrinterBand) = some bands := by
  have hlen : (BitVec.ofNat 8 bands.length).toNat = bands.length := by
    rw [BitVec.toNat_ofNat, Nat.mod_eq_of_lt (by omega)]
  have h5 : ∀ d ∈ bands, (printerBandBytes d).length = 5 := fun d _ => rfl
  refine ⟨bands.map printerBandBytes, ?_, ?_⟩
  · rw [readList_some (by omega) (by omega), hlen, elements_flatMap bands h5]
    rw [hlen, List.length_flatMap, List.map_congr_left h5]
    simp [Nat.mul_comm]
  · rw [List.map_map]
    exact (allSome_map_some (g := id) bands fun d hd => readPrinterBand_bytes (hb d hd).1 (hb d hd).2).trans
      (congrArg some (List.map_id _))

/-! ### The three requests -/

/-- A request whose owner stores new settings, recomputes every live account's mode, and completes it. -/
theorem exec_recomputes {k : RequestKind} {tag claimed : Byte} {p : List Byte} {f : Settings → Settings} {r : ResultCode}
    {reply : List Byte} (h : admits s k tag claimed p)
    (hu : (holding s (entryOf s k tag claimed p .owner)).serve (entryOf s k tag claimed p .owner) =
      (((holding s (entryOf s k tag claimed p .owner)).modSettings f).recomputeAllModes).finish
        (entryOf s k tag claimed p .owner) r reply) :
    ∃ t, exec (requestOf k tag claimed p) s = .next t ∧ t.settings = f s.settings ∧
      (∀ b : Bay, (s.account b).live = true → (t.account b).mode = effectiveMode (f s.settings) (s.account b)) ∧
      (∀ b : Bay, (s.account b).live = false → t.account b = s.account b) ∧
      (∀ b : Bay, (t.account b).committed = (s.account b).committed ∧ (t.account b).pending = (s.account b).pending ∧
        (t.account b).inFlight = (s.account b).inFlight ∧ (t.account b).residue = (s.account b).residue) ∧
      t.bays = s.bays ∧ t.ports = s.ports ∧ t.journal = s.journal := by
  obtain ⟨t, hexec, ⟨l, n, ht⟩, -⟩ := exec_event h hu
  obtain ⟨a, v, l1, q1, hr, ha⟩ :=
    recomputeAllModes_only ((holding s (entryOf s k tag claimed p .owner)).modSettings f)
  obtain ⟨l2, q2, hf⟩ := finish_only ((holding s (entryOf s k tag claimed p .owner)).modSettings f).recomputeAllModes
    (entryOf s k tag claimed p .owner) r reply
  rw [hf, hr] at ht
  have hacc : ∀ b, t.account b = a[b] := fun b => by rw [ht]; rfl
  refine ⟨t, hexec, by rw [ht]; rfl, fun b hb => ?_, fun b hb => (hacc b).trans ((ha b).1 hb), fun b => ?_,
    by rw [ht]; rfl, by rw [ht]; rfl, by rw [ht]; rfl⟩
  · obtain ⟨d, hd⟩ := (ha b).2 hb
    rw [hacc, hd]; rfl
  · rw [hacc]
    cases hb : (s.account b).live with
    | false => rw [(ha b).1 hb]; exact ⟨rfl, rfl, rfl, rfl⟩
    | true =>
      obtain ⟨d, hd⟩ := (ha b).2 hb
      rw [hd]; exact ⟨rfl, rfl, rfl, rfl⟩

theorem serveSetBands_taken {e : QueueEntry} {bands : List PrinterBand} (hn : bands.length ≤ 4)
    (hb : ∀ d ∈ bands, d.low ≤ d.high ∧ d.high < 65536)
    (hp : e.payload = BitVec.ofNat 8 bands.length :: bands.flatMap printerBandBytes) :
    s.serveSetBands e = ((s.modSettings fun x => { x with bands := bands }).recomputeAllModes).finish e .ok
      [byteOf bands.length] := by
  obtain ⟨items, hi, ha⟩ := readBands_payload hn hb
  unfold State.serveSetBands
  rw [hp, hi]; dsimp only
  rw [ha]

theorem serveHold_changed {e : QueueEntry} {v : Bool} (hp : e.payload = [if v then 0x01#8 else 0x00#8])
    (hv : v ≠ s.settings.hold) : s.serveHold e =
      ((s.modSettings fun x => { x with hold := v }).recomputeAllModes).finish e .ok [boolByte v] := by
  have hb : boolOfByte (byteAt e.payload 0) = some v := by rw [hp]; cases v <;> rfl
  unfold State.serveHold
  rw [hb]; dsimp only
  rw [if_neg hv]

theorem serveConfigure_mode {e : QueueEntry} {m : Mode} (hp : e.payload = [0x02#8, 0x00#8, BitVec.ofNat 8 m.rank])
    (hm : m ≠ s.settings.defaultMode) : s.serveConfigure e =
      ((s.modSettings fun x => { x with defaultMode := m }).recomputeAllModes).finish e .ok (0x02#8 :: beBytes 2 m.rank) := by
  have hs : settingOfByte (byteAt e.payload 0) = some .defaultMode := by rw [hp]; rfl
  have hv : beNat (slice e.payload 1 2) = m.rank := by rw [hp]; cases m <;> rfl
  have hap : Setting.applied .defaultMode m.rank = some m.rank := by cases m <;> rfl
  have hst : Setting.store .defaultMode m.rank = fun x => { x with defaultMode := m } := by
    cases m <;> rfl
  have hne : ¬m.rank = Setting.value .defaultMode s.settings := by
    change ¬m.rank = s.settings.defaultMode.rank
    revert hm
    cases m <;> cases s.settings.defaultMode <;> decide
  unfold State.serveConfigure
  rw [hs]; dsimp only
  unfold State.configureSetting
  rw [hv, hap]; dsimp only
  rw [if_neg hne, if_pos rfl, hst, hp]; rfl

/-- Settles O49: each request stores its setting and recomputes every live account. -/
theorem modeSettingsRecomputeEveryMode : Obligations.ModeSettingsRecomputeEveryMode := by
  rintro s c tag claimed x (⟨bands, p, hn, hb, rfl, h, rfl, rfl⟩ | ⟨v, h, rfl, hv, rfl⟩ | ⟨m, h, rfl, hm, rfl⟩)
  · exact exec_recomputes (f := fun x => { x with bands := bands }) h
      (serveSetBands_taken (s := holding s _) (e := entryOf s .setBands tag claimed _ .owner) hn hb rfl)
  · exact exec_recomputes (f := fun x => { x with hold := v }) h
      (serveHold_changed (s := holding s _) (e := entryOf s .hold tag claimed _ .owner) rfl hv)
  · exact exec_recomputes (f := fun x => { x with defaultMode := m }) h
      (serveConfigure_mode (s := holding s _) (e := entryOf s .configure tag claimed _ .owner) rfl hm)

end Sys2Proof.Machine
end

section
/-! PROOF. CONFIGURE (R172, 10.7): the settings that are only read later, the re-challenge interval, the low threshold, and the
refill tolerance (R13, R131). -/

namespace Sys2Proof.Machine

open Sys2Proof.Safety

variable {s : State}

/-! ### The request -/

/-- 12.1: the payload of a CONFIGURE. -/
def configureBytes (id : Byte) (v : BitVec 16) : List Byte := id :: beBytes 2 v.toNat

theorem serveConfigure_of {e : QueueEntry} {id : Byte} {v : BitVec 16} {x : Setting} (hp : e.payload = configureBytes id v)
    (hx : settingOfByte id = some x) : s.serveConfigure e = s.configureSetting e x v.toNat := by
  have h0 : byteAt e.payload 0 = id := by rw [hp]; rfl
  have h1 : beNat (slice e.payload 1 2) = v.toNat := by rw [hp]; exact beNat_field v
  unfold State.serveConfigure
  rw [h0, hx, h1]

theorem configureSetting_refused {e : QueueEntry} {x : Setting} {v : Nat} (h : x.applied v = none) :
    s.configureSetting e x v = s.finish e .badValue [] := by
  unfold State.configureSetting; rw [h]

/-- A setting whose delivery changes nothing of the state `s` that has it stored. -/
theorem configureSetting_plain {e : QueueEntry} {id : Byte} {val : BitVec 16} {x : Setting} {v w : Nat}
    (hp : e.payload = configureBytes id val) (h : x.applied v = some w)
    (hd : w ≠ x.value s.settings → (s.modSettings (x.store w)).deliverSetting x (x.value s.settings) w = s.modSettings (x.store w)) :
    s.configureSetting e x v =
      (s.modSettings (x.store w)).finish e (if w = v then .ok else .clamped) (id :: beBytes 2 w) := by
  have h0 : byteAt e.payload 0 = id := by rw [hp]; rfl
  unfold State.configureSetting
  rw [h, h0]; dsimp only
  by_cases hw : w = x.value s.settings
  · rw [if_pos hw]
  · rw [if_neg hw, hd hw]

theorem configureSetting_delivered {e : QueueEntry} {id : Byte} {val : BitVec 16} {x : Setting} {v w : Nat}
    (hp : e.payload = configureBytes id val) (h : x.applied v = some w) : s.configureSetting e x v =
      (if w = x.value s.settings then s.modSettings (x.store w)
        else (s.modSettings (x.store w)).deliverSetting x (x.value s.settings) w).finish e
        (if w = v then .ok else .clamped) (id :: beBytes 2 w) := by
  have h0 : byteAt e.payload 0 = id := by rw [hp]; rfl
  unfold State.configureSetting
  rw [h, h0]

/-- A CONFIGURE of a setting that is only read later. -/
theorem exec_configure_plain {tag claimed : Byte} {id : Byte} {v : BitVec 16} {x : Setting} {w : Nat} {y : Settings}
    (h : admits s .configure tag claimed (configureBytes id v)) (hx : settingOfByte id = some x)
    (ha : x.applied v.toNat = some w) (hy : x.store w s.settings = y)
    (hd : w ≠ x.value s.settings → ∀ u : State, u.bays = s.bays → u.deliverSetting x (x.value s.settings) w = u) :
    exec (.configure tag claimed (configureBytes id v)) s = .next
      (answered { s with dispatcher := { s.dispatcher with settings := y } }
        (entryOf s .configure tag claimed (configureBytes id v) .owner) (if w = v.toNat then .ok else .clamped)
        (id :: beBytes 2 w)) := by
  subst hy
  refine exec_answers (t := s.modSettings (x.store w)) h ?_ rfl rfl
  exact (serveConfigure_of (s := holding s _) (e := entryOf s .configure tag claimed (configureBytes id v) .owner) rfl hx).trans
    (configureSetting_plain (id := id) (val := v) rfl ha fun hw => hd hw _ rfl)

/-! ### Delivery to every bay -/

theorem nodup_allBays : allBays.Nodup := by decide

/-- Only bay `b` acts, and its action leaves the others in place. -/
theorem forBays_one (f : Bay → State → State) (b : Bay) (h1 : ∀ d, d ≠ b → f d s = s) (h2 : ∀ d, d ≠ b → f d (f b s) = f b s) :
    forBays f s = f b s := by
  have after : ∀ (l : List Bay), b ∉ l → l.foldl (fun s d => f d s) (f b s) = f b s := by
    intro l
    induction l with
    | nil => exact fun _ => rfl
    | cons d l ih =>
      intro hb
      have hd : d ≠ b := fun k => hb (k ▸ List.mem_cons_self ..)
      rw [List.foldl_cons, h2 d hd, ih fun k => hb (List.mem_cons_of_mem _ k)]
  have key : ∀ (l : List Bay), l.Nodup → b ∈ l → l.foldl (fun s d => f d s) s = f b s := by
    intro l
    induction l with
    | nil => exact fun _ h => nomatch h
    | cons d l ih =>
      intro hn hb
      obtain ⟨hd, hl⟩ := List.nodup_cons.1 hn
      by_cases hdb : d = b
      · subst hdb
        exact after l hd
      · rw [List.foldl_cons, h1 d hdb]
        exact ih hl ((List.mem_cons.1 hb).resolve_left (Ne.symm hdb))
  exact key allBays nodup_allBays (mem_allBays b)

theorem forBays_none (f : Bay → State → State) (h : ∀ d, f d s = s) : forBays f s = s := by
  have key : ∀ l : List Bay, l.foldl (fun s d => f d s) s = s := by
    intro l
    induction l with
    | nil => rfl
    | cons d l ih => rw [List.foldl_cons, h d, ih]
  exact key allBays

/-! ### The interval (R18) -/

theorem timerStart_eq (w : Nat) : timerStart w = if w = 0 then none else some (w * 1000) := rfl

theorem map_retime (v : Vector BayRec 12) (old w : Nat) :
    (if w = old then v else v.map (BayRec.retime old w)) = v.map fun r =>
      if w = old then r
      else if old = 0 then
        if r.state = .admitted ∧ r.rechallenge = .idle then { r with rechallengeTimer := some (w * 1000) } else r
      else if r.rechallengeTimer.isSome = true then
        { r with rechallengeTimer := if w = 0 then none else some (w * 1000) } else r := by
  by_cases h : w = old
  · simp [h]
  · simp only [if_neg h]
    refine congrArg (v.map ·) (funext fun r => ?_)
    unfold BayRec.retime
    by_cases ho : old = 0
    · have hw : w ≠ 0 := fun k => h (k.trans ho.symm)
      rw [if_pos ho, if_pos ho, timerStart_eq, if_neg hw]
      exact if_congr (by simp) rfl rfl
    · rw [if_neg ho, if_neg ho, timerStart_eq]

/-! ### The low threshold (R111) -/

/-- The low-level test of an account at or below the threshold that has not been reported. -/
def lowHit (s : State) (b : Bay) : Prop := (s.bay b).drawable = true ∧ (s.account b).live = true ∧
  (s.account b).metering = .metered ∧ (s.account b).lowNotified = false ∧ (s.account b).level ≤ s.settings.lowThreshold

theorem lowTest_hit {b : Bay} (h : lowHit s b) :
    s.lowTest b = (s.modAccount b fun a => { a with lowNotified := true }).raise .levelLow b := by
  obtain ⟨h1, h2, h3, h4, h5⟩ := h
  unfold State.lowTest
  exact if_pos (by simp [Account.liveMetered, h1, h2, h3, h4, h5])

theorem lowTest_miss {b : Bay} (h : ¬lowHit s b) : s.lowTest b = s := by
  unfold State.lowTest
  refine if_neg fun k => h ?_
  simpa [Account.liveMetered, lowHit, and_assoc] using k

theorem joined_bit (x : Source) (b c : Bay) :
    (joined x c).bays.getLsbD b.val = (x.bays.getLsbD b.val || decide (b = c)) := by
  have h : (1#12 <<< c.val).getLsbD b.val = decide (b = c) := by revert b c; decide
  change (x.bays ||| (1#12 <<< c.val)).getLsbD b.val = _
  rw [BitVec.getLsbD_or, h]

/-- The low-level test of some bays: each hit is reported once, and nothing else of the accounts or of LEVEL_LOW changes. -/
theorem foldl_lowTest (bs : List Bay) : ∀ s : State, ∃ a v, bs.foldl (fun s b => s.lowTest b) s =
      { s with accounts := a, notice := { s.notice with sources := v } } ∧
    ∀ b : Bay, (b ∈ bs → lowHit s b → a[b] = { s.account b with lowNotified := true } ∧
        v[NoticeKind.levelLow.index].bays.getLsbD b.val = true) ∧
      (b ∉ bs ∨ ¬lowHit s b → a[b] = s.account b ∧
        v[NoticeKind.levelLow.index].bays.getLsbD b.val = (s.source .levelLow).bays.getLsbD b.val) := by
  induction bs with
  | nil => exact fun s => ⟨_, _, rfl, fun b => ⟨fun h => (nomatch h), fun _ => ⟨rfl, rfl⟩⟩⟩
  | cons c bs ih =>
    intro s
    rw [List.foldl_cons]
    by_cases hc : lowHit s c
    · rw [lowTest_hit hc]
      obtain ⟨a, v, h, hb⟩ := ih ((s.modAccount c fun a => { a with lowNotified := true }).raise .levelLow c)
      have hacc : ∀ b, ((s.modAccount c fun a => { a with lowNotified := true }).raise .levelLow c).account b =
          if b = c then { s.account c with lowNotified := true } else s.account b := fun b => upd_get _ _ _ _
      have hsrc : ((s.modAccount c fun a => { a with lowNotified := true }).raise .levelLow c).source .levelLow =
          joined (s.source .levelLow) c := upd_get_same _ _ _
      have hhit : ∀ b, lowHit ((s.modAccount c fun a => { a with lowNotified := true }).raise .levelLow c) b ↔ b ≠ c ∧ lowHit s b := by
        intro b
        unfold lowHit
        rw [hacc]
        by_cases hbc : b = c
        · simp [hbc]
        · rw [if_neg hbc]
          exact ⟨fun k => ⟨hbc, k⟩, fun k => k.2⟩
      refine ⟨a, v, h, fun b => ⟨fun hm hl => ?_, fun hm => ?_⟩⟩
      · by_cases hbc : b = c
        · subst hbc
          obtain ⟨k1, k2⟩ := (hb b).2 (.inr fun k => ((hhit b).1 k).1 rfl)
          rw [hacc, if_pos rfl] at k1
          rw [hsrc, joined_bit] at k2
          exact ⟨k1, by simpa using k2⟩
        · obtain ⟨k1, k2⟩ := (hb b).1 ((List.mem_cons.1 hm).resolve_left hbc) ((hhit b).2 ⟨hbc, hl⟩)
          rw [hacc, if_neg hbc] at k1
          exact ⟨k1, k2⟩
      · have hbc : b ≠ c := by
          rintro rfl
          exact hm.elim (fun k => k (List.mem_cons_self ..)) fun k => k hc
        obtain ⟨k1, k2⟩ := (hb b).2 (hm.imp (fun k j => k (List.mem_cons_of_mem _ j)) fun k j => k ((hhit b).1 j).2)
        rw [hacc, if_neg hbc] at k1
        rw [hsrc, joined_bit, decide_eq_false hbc, Bool.or_false] at k2
        exact ⟨k1, k2⟩
    · rw [lowTest_miss hc]
      obtain ⟨a, v, h, hb⟩ := ih s
      refine ⟨a, v, h, fun b => ⟨fun hm hl => (hb b).1 ((List.mem_cons.1 hm).resolve_left fun k => hc (k ▸ hl)) hl, fun hm =>
        (hb b).2 (hm.imp_left fun k j => k (List.mem_cons_of_mem _ j))⟩⟩

/-! ### The tolerance (R13, R131) -/

theorem admitQuarantined_other {b : Bay} (h : (s.bay b).state ≠ .quarantined) : s.admitQuarantined b = s := by
  unfold State.admitQuarantined; exact if_neg h

theorem admitQuarantined_own {b : Bay} {x : Serial} (h : (s.bay b).state = .quarantined) (hx : s.serialRead b = some x) :
    s.admitQuarantined b = if s.drawnElsewhere b x then
      ((s.modEntryJournaled x fun e => { e with lastVerdict := .clone }).setVerdict b .clone).rejectBay b .clone
      else (s.enterAdmitted b).openWithDebt b x .unmetered := by
  unfold State.admitQuarantined
  rw [if_pos h, hx]

theorem entry_modEntryJournaled (s : State) (x : Serial) (f : HistoryEntry → HistoryEntry) (hf : ∀ e, (f e).serial = e.serial) :
    (s.modEntryJournaled x f).entry x = (s.entry x).map f := by
  unfold State.modEntryJournaled
  cases he : s.entry x with
  | none => exact he
  | some e =>
    dsimp only
    split
    · rename_i hfe
      rw [he, Option.map_some, hfe]
    · obtain ⟨l, c, h⟩ := (s.modEntry x f).joinSet_only x
      have hj : ((s.modEntry x f).joinSet x).entry x = (s.modEntry x f).entry x := by rw [h]; rfl
      rw [hj, State.entry_modEntry s x f hf, he]

/-- An account that is not live has nothing to close. -/
theorem closeWithLiability_dead {b : Bay} (h : (s.account b).live = false) : s.closeWithLiability b = s := by
  unfold State.closeWithLiability
  exact if_neg (by rw [h]; exact Bool.false_ne_true)

/-- The rejection of a bay without a live account, by field. -/
theorem rejectBay_dead {b : Bay} {r : RejectReason} (h : (s.account b).live = false) : ∃ l q, s.rejectBay b r = { s with
    bays := upd s.bays b fun x =>
      { x with fetchDue := false, state := .rejected, rejectReason := r, rechallenge := .idle, rechallengeTimer := none }
    ports := upd s.ports b endedPort, buses := upd s.buses (busOf b) (endedBus b)
    digest := { s.digest.dropJob b with contexts := upd s.digest.contexts b fun _ => Context.closed }
    notice := { s.notice with
      sources := upd s.notice.sources r.notice.index fun x => { x with bays := x.bays ||| (1#12 <<< b.val) } }
    link := l, dispatcher := { s.dispatcher with queue := q } } := by
  obtain ⟨l, q, hw⟩ := State.settleWaits_only (((s.leaveTo b .rejected r).closeWithLiability b).raise r.notice b) b failedEnding
  have hd : (s.leaveTo b .rejected r).closeWithLiability b = s.leaveTo b .rejected r :=
    closeWithLiability_dead (by rw [leaveTo_eq]; exact h)
  refine ⟨l, q, ?_⟩
  unfold State.rejectBay
  rw [hw, hd, leaveTo_eq]
  rfl

/-- An UNMETERED account at its opening, with debt quanta taken as overdraw (R83, R129). -/
def openedUnmetered (x : Settings) (i : IdentityPage) (c : CalibrationPage) (u : UsagePage) (n : Nat) : Account :=
  { Account.opened i c u .unmetered false with
    mode := effectiveMode x (Account.opened i c u .unmetered false), overdraw := addSaturating 0 n }

theorem allowance_unmetered {r : BayRec} {a : Account} (h : a.metering = .unmetered) :
    (decide (r.state = .admitted) && decide (allowanceOf r a = 0)) = false := by
  unfold allowanceOf
  by_cases hr : r.state = .admitted
  · rw [if_pos hr, h]; simp [Config.allOnes16]
  · simp [hr]

theorem openAccount_unmetered {b : Bay} {i : IdentityPage} {c : CalibrationPage} {u : UsagePage} (n r : Nat)
    (hi : (s.bay b).identityPage = some i) (hc : (s.bay b).calibrationPage = some c) (hu : (s.bay b).usagePage = some u) :
    ∃ v, s.openAccount b .unmetered n r = { s with
      accounts := upd s.accounts b fun _ => openedUnmetered s.settings i c u n
      notice := { s.notice with sources := v } } ∧ SourcesOnly ledgerKinds s.notice.sources v := by
  let y := s.modAccount b fun _ => { Account.opened i c u .unmetered false with
    mode := effectiveMode s.settings (Account.opened i c u .unmetered false) }
  obtain ⟨v, h, hv⟩ := y.addOverdraw_only b n
  refine ⟨v, ?_, hv⟩
  have hacc : y.addOverdraw b n = { s with
      accounts := upd s.accounts b fun _ => openedUnmetered s.settings i c u n
      notice := { s.notice with sources := v } } := by
    rw [h, State.account_modAccount_same]
    simp only [y, State.modAccount, upd_upd]
    rfl
  have hopen : s.openAccount b .unmetered n r = (y.addOverdraw b n).raiseIf
      (decide (((y.addOverdraw b n).bay b).state = .admitted) && decide ((y.addOverdraw b n).allowance b = 0))
      .allowanceExhausted b := by
    unfold State.openAccount
    rw [hi, hc, hu]; rfl
  have hm : ((y.addOverdraw b n).account b).metering = .unmetered := by
    rw [hacc]
    exact congrArg Account.metering (upd_get_same _ _ _)
  have hallow := allowance_unmetered (r := (y.addOverdraw b n).bay b) hm
  rw [hopen]
  unfold State.allowance
  rw [hallow, hacc]
  rfl

/-- An admission with the entry's debt opens the account from a state that has the bay ADMITTED and the entry's debt gone
(R128, R129). -/
theorem openWithDebt_from {b : Bay} {e : HistoryEntry} {x : Serial} (he : s.entry x = some e) :
    ∃ (y : State) (t : List HistoryEntry) (j : List Serial) (k : Bool), y = { s with
      bays := upd s.bays b fun r =>
        { r with state := .admitted, rechallenge := .idle, rechallengeTimer := timerStart s.settings.interval }
      notice := { s.notice with
        sources := upd s.notice.sources NoticeKind.admitted.index fun x => { x with bays := x.bays ||| (1#12 <<< b.val) } }
      refill := { s.refill with table := t }, journal := { s.journal with appendSet := j, copyStale := k } } ∧
      y.entry x = some { e with debtQuanta := 0, debtResidue := 0, doubt := none } ∧
      ∀ m, (s.enterAdmitted b).openWithDebt b x m = y.openAccount b m e.debtQuanta e.debtResidue := by
  have hd : (s.enterAdmitted b).debtOf x = (e.debtQuanta, e.debtResidue) := by
    unfold State.debtOf
    rw [show (s.enterAdmitted b).entry x = some e from he]
  have hent := entry_modEntryJournaled (s.enterAdmitted b) x (fun e => { e with debtQuanta := 0, debtResidue := 0, doubt := none })
    fun _ => rfl
  rw [show (s.enterAdmitted b).entry x = some e from he] at hent
  obtain ⟨t, j, k, hj⟩ := (s.enterAdmitted b).modEntryJournaled_only x
    fun e => { e with debtQuanta := 0, debtResidue := 0, doubt := none }
  refine ⟨(s.enterAdmitted b).clearDebt x, t, j, k, ?_, hent, fun m => ?_⟩
  · unfold State.clearDebt
    rw [hj]; rfl
  · unfold State.openWithDebt
    rw [hd]

/-- R131: the admission of a QUARANTINED bay, by field. -/
theorem admit_only {b : Bay} {i : IdentityPage} {c : CalibrationPage} {u : UsagePage} {e : HistoryEntry} {x : Serial}
    (hi : (s.bay b).identityPage = some i) (hc : (s.bay b).calibrationPage = some c) (hu : (s.bay b).usagePage = some u)
    (he : s.entry x = some e) : ∃ v t j k, (s.enterAdmitted b).openWithDebt b x .unmetered = { s with
      bays := upd s.bays b fun r =>
        { r with state := .admitted, rechallenge := .idle, rechallengeTimer := timerStart s.settings.interval }
      accounts := upd s.accounts b fun _ => openedUnmetered s.settings i c u e.debtQuanta
      notice := { s.notice with sources := v }, refill := { s.refill with table := t }
      journal := { s.journal with appendSet := j, copyStale := k } } ∧
      SourcesOnly ledgerKinds (upd s.notice.sources NoticeKind.admitted.index fun x =>
        { x with bays := x.bays ||| (1#12 <<< b.val) }) v ∧
      ((s.enterAdmitted b).openWithDebt b x .unmetered).entry x =
        some { e with debtQuanta := 0, debtResidue := 0, doubt := none } := by
  obtain ⟨y, t, j, k, hy, hent, hw⟩ := openWithDebt_from (b := b) he
  have hbay : y.bay b = { s.bay b with
      state := .admitted, rechallenge := .idle, rechallengeTimer := timerStart s.settings.interval } := by
    rw [hy]; exact upd_get_same _ _ _
  obtain ⟨v, ho, hv⟩ := openAccount_unmetered (s := y) (b := b) (i := i) (c := c) (u := u)
    e.debtQuanta e.debtResidue (by rw [hbay]; exact hi) (by rw [hbay]; exact hc) (by rw [hbay]; exact hu)
  refine ⟨v, t, j, k, ?_, ?_, ?_⟩
  · rw [hw, ho, hy]
  · rw [hy] at hv; exact hv
  · rw [hw, ho]; exact hent

/-- R131: a QUARANTINED bay whose serial is drawn elsewhere, by field. -/
theorem rejectClone_only {b : Bay} {x : Serial} {e : HistoryEntry} (he : s.entry x = some e) (hl : (s.account b).live = false) :
    ∃ f v t j k p u d l q, ((s.modEntryJournaled x fun e => { e with lastVerdict := .clone }).setVerdict b .clone).rejectBay b .clone =
      { s with
        bays := upd s.bays b f, notice := { s.notice with sources := v }, refill := { s.refill with table := t }
        journal := { s.journal with appendSet := j, copyStale := k }, ports := p, buses := u, digest := d
        link := l, dispatcher := { s.dispatcher with queue := q } } ∧
      (f (s.bay b)).state = .rejected ∧ (f (s.bay b)).rejectReason = .clone ∧ (f (s.bay b)).verdict = .clone ∧
      v[NoticeKind.clone.index] = joined (s.source .clone) b ∧
      (((s.modEntryJournaled x fun e => { e with lastVerdict := .clone }).setVerdict b .clone).rejectBay b .clone).entry x =
        some { e with lastVerdict := .clone } := by
  have hent := entry_modEntryJournaled s x (fun e => { e with lastVerdict := .clone }) fun _ => rfl
  rw [he] at hent
  obtain ⟨t, j, k, hj⟩ := s.modEntryJournaled_only x fun e => { e with lastVerdict := .clone }
  obtain ⟨l, q, hr⟩ := rejectBay_dead (s := (s.modEntryJournaled x fun e => { e with lastVerdict := .clone }).setVerdict b .clone)
    (b := b) (r := .clone) (by rw [hj]; exact hl)
  refine ⟨fun r => { r with
      verdict := .clone, fetchDue := false, state := .rejected, rejectReason := .clone, rechallenge := .idle
      rechallengeTimer := none }, upd s.notice.sources NoticeKind.clone.index fun x => { x with bays := x.bays ||| (1#12 <<< b.val) },
    t, j, k, upd s.ports b endedPort, upd s.buses (busOf b) (endedBus b),
    { s.digest.dropJob b with contexts := upd s.digest.contexts b fun _ => Context.closed }, l, q, ?_, rfl, rfl, rfl,
    upd_get_same _ _ _, ?_⟩
  · rw [hr, hj]
    simp only [State.setVerdict, State.modBay, upd_upd]
    rfl
  · rw [hr]; exact hent

/-! ### The clauses -/

section
variable {tag claimed : Byte} {v : BitVec 16}

theorem settingOfByte_none {id : Byte} (h : id = 0 ∨ 9 < id.toNat) : settingOfByte id = none := by
  unfold settingOfByte
  rcases h with rfl | h
  · rfl
  · split <;> first | omega | rfl

theorem configure_refused {id : Byte}
    (hid : id = 0 ∨ 9 < id.toNat ∨ ((id = 0x03#8 ∨ id = 0x09#8) ∧ 1 < v.toNat) ∨ (id = 0x02#8 ∧ 2 < v.toNat))
    (h : admits s .configure tag claimed (configureBytes id v)) : exec (.configure tag claimed (configureBytes id v)) s =
      .next (answered s (entryOf s .configure tag claimed (configureBytes id v) .owner) .badValue []) := by
  refine exec_refuses h ?_
  have none_of : ∀ x, settingOfByte id = some x → x.applied v.toNat = none →
      (holding s (entryOf s .configure tag claimed (configureBytes id v) .owner)).serveConfigure
        (entryOf s .configure tag claimed (configureBytes id v) .owner) =
      (holding s (entryOf s .configure tag claimed (configureBytes id v) .owner)).finish
        (entryOf s .configure tag claimed (configureBytes id v) .owner) .badValue [] := fun x hx ha =>
    (serveConfigure_of (e := entryOf s .configure tag claimed (configureBytes id v) .owner) rfl hx).trans
      (configureSetting_refused ha)
  change State.serveConfigure _ _ = _
  rcases hid with h0 | h9 | ⟨rfl | rfl, hv⟩ | ⟨rfl, hv⟩
  · unfold State.serveConfigure
    rw [show byteAt (entryOf s .configure tag claimed (configureBytes id v) .owner).payload 0 = id from rfl,
      settingOfByte_none (.inl h0)]
  · unfold State.serveConfigure
    rw [show byteAt (entryOf s .configure tag claimed (configureBytes id v) .owner).payload 0 = id from rfl,
      settingOfByte_none (.inr h9)]
  · exact none_of .tolerance rfl (if_neg (by omega))
  · exact none_of .resume rfl (if_neg (by omega))
  · exact none_of .defaultMode rfl (if_neg (by omega))

/-- R18. -/
theorem configure_interval (h : admits s .configure tag claimed (configureBytes 0x04#8 v)) :
    let w := if v.toNat = 0 then 0 else max 10 (min 3600 v.toNat)
    exec (.configure tag claimed (configureBytes 0x04#8 v)) s = .next (answered
      { s with
        bays := s.bays.map fun r =>
          if w = s.settings.interval then r
          else if s.settings.interval = 0 then
            if r.state = .admitted ∧ r.rechallenge = .idle then { r with rechallengeTimer := some (w * 1000) } else r
          else if r.rechallengeTimer.isSome = true then
            { r with rechallengeTimer := if w = 0 then none else some (w * 1000) } else r
        dispatcher := { s.dispatcher with settings := { s.settings with interval := w } } }
      (entryOf s .configure tag claimed (configureBytes 0x04#8 v) .owner) (if w = v.toNat then .ok else .clamped)
      (0x04#8 :: beBytes 2 w)) := by
  intro w
  rw [← map_retime s.bays s.settings.interval w]
  refine exec_answers (k := .configure) h ?_ rfl rfl
  refine ((serveConfigure_of (s := holding s _) (e := entryOf s .configure tag claimed (configureBytes 0x04#8 v) .owner) rfl
    rfl).trans (configureSetting_delivered (id := 0x04#8) (val := v) (x := .interval) (w := w) rfl rfl)).trans ?_
  change State.finish (if w = s.settings.interval then _ else _) _ _ _ = _
  by_cases hw : w = s.settings.interval
  · rw [if_pos hw, if_pos hw]; rfl
  · rw [if_neg hw, if_neg hw]; rfl

/-- R111. -/
theorem configure_lowThreshold (h : admits s .configure tag claimed (configureBytes 0x05#8 v)) :
    let w := max 10 (min 500 v.toNat)
    let low : Bay → Prop := fun b => w ≠ s.settings.lowThreshold ∧ (s.bay b).drawable = true ∧ (s.account b).live = true ∧
      (s.account b).metering = .metered ∧ (s.account b).lowNotified = false ∧ (s.account b).level ≤ w
    ∃ t, exec (.configure tag claimed (configureBytes 0x05#8 v)) s = .next t ∧
      t.settings = { s.settings with lowThreshold := w } ∧
      t.link = (answered { s with dispatcher := { s.dispatcher with settings := { s.settings with lowThreshold := w } } }
        (entryOf s .configure tag claimed (configureBytes 0x05#8 v) .owner) (if w = v.toNat then .ok else .clamped)
        (0x05#8 :: beBytes 2 w)).link ∧ t.bays = s.bays ∧ t.ports = s.ports ∧
      ∀ b : Bay, (low b → t.account b = { s.account b with lowNotified := true } ∧
          (t.source .levelLow).bays.getLsbD b.val = true) ∧
        (¬low b → t.account b = s.account b ∧
          (t.source .levelLow).bays.getLsbD b.val = (s.source .levelLow).bays.getLsbD b.val) := by
  intro w low
  let e := entryOf s .configure tag claimed (configureBytes 0x05#8 v) .owner
  let y := (holding s e).modSettings (Setting.store .lowThreshold w)
  obtain ⟨a, n, hfold, hb⟩ := foldl_lowTest allBays y
  have hy : ∃ a n, (if w = s.settings.lowThreshold then y else forBays (fun b s => s.lowTest b) y) =
      { y with accounts := a, notice := { y.notice with sources := n } } ∧ ∀ b : Bay,
      (low b → a[b] = { s.account b with lowNotified := true } ∧ n[NoticeKind.levelLow.index].bays.getLsbD b.val = true) ∧
      (¬low b → a[b] = s.account b ∧
        n[NoticeKind.levelLow.index].bays.getLsbD b.val = (s.source .levelLow).bays.getLsbD b.val) := by
    by_cases hw : w = s.settings.lowThreshold
    · exact ⟨s.accounts, s.notice.sources, if_pos hw, fun b => ⟨fun k => absurd hw k.1, fun _ => ⟨rfl, rfl⟩⟩⟩
    · refine ⟨a, n, (if_neg hw).trans hfold, fun b => ⟨fun k => (hb b).1 (mem_allBays b) k.2, fun k => (hb b).2 (.inr fun j => ?_)⟩⟩
      exact k ⟨hw, j⟩
  obtain ⟨a, n, hy, hb⟩ := hy
  obtain ⟨t, hexec, ⟨l, m, q, ht⟩, hlink⟩ := exec_finishes (k := .configure) (r := if w = v.toNat then .ok else .clamped)
    (reply := 0x05#8 :: beBytes 2 w) (u := { y with accounts := a, notice := { y.notice with sources := n } }) h
    (((serveConfigure_of (s := holding s e) (e := e) rfl rfl).trans (configureSetting_delivered (s := holding s e) (id := 0x05#8)
      (val := v) (x := .lowThreshold) (w := w) rfl rfl)).trans (congrArg (State.finish · e _ _) hy)) rfl rfl
  refine ⟨t, hexec, by rw [ht]; rfl, hlink.trans ?_, by rw [ht]; rfl, by rw [ht]; rfl, fun b => ?_⟩
  · unfold answered
    rw [placing_link, placing_link]; rfl
  · have h1 : t.account b = a[b] := by rw [ht]; rfl
    have h2 : t.source .levelLow = n[NoticeKind.levelLow.index] := by rw [ht]; rfl
    rw [h1, h2]
    exact hb b

theorem serveConfigure_accept {e : QueueEntry} (hp : e.payload = configureBytes 0x03#8 v) (hv : v.toNat = 0)
    (ht : s.settings.tolerance = .refuse) : s.serveConfigure e =
      (forBays (fun b s => s.admitQuarantined b) (s.modSettings (Setting.store .tolerance 0))).finish e
        (if 0 = v.toNat then .ok else .clamped) (0x03#8 :: beBytes 2 0) := by
  have ha : Setting.applied .tolerance v.toNat = some 0 := by rw [hv]; rfl
  have hne : ¬0 = Setting.value .tolerance s.settings := by
    change ¬0 = s.settings.tolerance.code
    rw [ht]; decide
  rw [serveConfigure_of (x := .tolerance) hp rfl, configureSetting_delivered hp ha, if_neg hne]
  rfl

/-- R13, R131. -/
theorem configure_accept (h : admits s .configure tag claimed (configureBytes 0x03#8 v)) (hv : v.toNat = 0)
    (ht : s.settings.tolerance = .refuse) {b : Bay} {i : IdentityPage} {c : CalibrationPage} {u : UsagePage} {e : HistoryEntry}
    (hb : (s.bay b).state = .quarantined) (hone : ∀ d, (s.bay d).state = .quarantined → d = b)
    (hi : (s.bay b).identityPage = some i) (hc : (s.bay b).calibrationPage = some c) (hu : (s.bay b).usagePage = some u)
    (he : s.entry i.serial = some e) (hl : (s.account b).live = false) :
    let elsewhere : Prop := ∃ d, d ≠ b ∧ (s.bay d).drawable = true ∧ s.serialRead d = some i.serial
    ∃ t, exec (.configure tag claimed (configureBytes 0x03#8 v)) s = .next t ∧
      t.settings = { s.settings with tolerance := .accept } ∧
      (∀ d, d ≠ b → t.bay d = s.bay d ∧ t.account d = s.account d) ∧
      (¬elsewhere →
        t.bay b = { s.bay b with
          state := .admitted, rechallenge := .idle
          rechallengeTimer := if s.settings.interval = 0 then none else some (s.settings.interval * 1000) } ∧
        t.source .admitted = joined (s.source .admitted) b ∧
        t.entry i.serial = some { e with debtQuanta := 0, debtResidue := 0, doubt := none } ∧
        (t.account b).live = true ∧ (t.account b).metering = .unmetered ∧ (t.account b).committed = u.counter ∧
        (t.account b).pending = 0 ∧ (t.account b).residue = 0 ∧ (t.account b).overdraw = min e.debtQuanta 65535 ∧
        (t.account b).unmeteredCount = 0) ∧
      (elsewhere →
        (t.bay b).state = .rejected ∧ (t.bay b).rejectReason = .clone ∧ (t.bay b).verdict = .clone ∧
        t.source .clone = joined (s.source .clone) b ∧ t.account b = s.account b ∧
        t.entry i.serial = some { e with lastVerdict := .clone }) := by
  intro elsewhere
  let q := entryOf s .configure tag claimed (configureBytes 0x03#8 v) .owner
  let y := (holding s q).modSettings (Setting.store .tolerance 0)
  have hx : y.serialRead b = some i.serial := by
    change (s.bay b).identityPage.map (·.serial) = _
    rw [hi]; rfl
  have hserve : (holding s q).serve q = (forBays (fun b s => s.admitQuarantined b) y).finish q
      (if 0 = v.toNat then .ok else .clamped) (0x03#8 :: beBytes 2 0) :=
    serveConfigure_accept (s := holding s q) (e := q) rfl hv ht
  have others : ∀ d, d ≠ b → (y.bay d).state ≠ .quarantined := fun d hd k => hd (hone d k)
  obtain ⟨t, hexec, ⟨l, n, htt⟩, -⟩ := exec_event h hserve
  obtain ⟨l', q', hf⟩ := finish_only (forBays (fun b s => s.admitQuarantined b) y) q (if 0 = v.toNat then .ok else .clamped)
    (0x03#8 :: beBytes 2 0)
  rw [hf] at htt
  -- the one bay's own step, and that it leaves the others in place
  have hfor : ∀ z, y.admitQuarantined b = z → (∀ d, d ≠ b → z.bay d = y.bay d) →
      forBays (fun b s => s.admitQuarantined b) y = z := by
    rintro z rfl hz
    exact forBays_one (fun b s => s.admitQuarantined b) b (fun d hd => admitQuarantined_other (others d hd))
      fun d hd => admitQuarantined_other (by rw [hz d hd]; exact others d hd)
  have hact : y.admitQuarantined b = if y.drawnElsewhere b i.serial then
      ((y.modEntryJournaled i.serial fun e => { e with lastVerdict := .clone }).setVerdict b .clone).rejectBay b .clone
      else (y.enterAdmitted b).openWithDebt b i.serial .unmetered := by
    exact admitQuarantined_own (s := y) hb hx
  by_cases hel : y.drawnElsewhere b i.serial = true
  · have hel' : elsewhere := (drawnElsewhere_iff y b i.serial).1 hel
    rw [if_pos hel] at hact
    obtain ⟨f, vs, tb, j, k, p, us, dg, l1, q1, hr, hs1, hs2, hs3, hs4, hent⟩ := rejectClone_only (s := y) (b := b) he hl
    rw [hfor _ (hact.trans hr) fun d hd => upd_get_ne _ _ hd] at htt
    have hbay : t.bay b = f (s.bay b) := by rw [htt]; exact upd_get_same _ _ _
    refine ⟨t, hexec, ?_, fun d hd => ⟨?_, ?_⟩, fun hn => absurd hel' hn, fun _ => ⟨?_, ?_, ?_, ?_, ?_, ?_⟩⟩
    · rw [htt]; rfl
    · rw [htt]; exact upd_get_ne _ _ hd
    · rw [htt]; rfl
    · rw [hbay]; exact hs1
    · rw [hbay]; exact hs2
    · rw [hbay]; exact hs3
    · rw [htt]; exact hs4
    · rw [htt]; rfl
    · rw [htt]; rw [hr] at hent; exact hent
  · have hel' : ¬elsewhere := fun k => hel ((drawnElsewhere_iff y b i.serial).2 k)
    rw [if_neg hel] at hact
    obtain ⟨vs, tb, j, k, hr, hsrc, hent⟩ := admit_only (s := y) (b := b) hi hc hu he
    rw [hfor _ (hact.trans hr) fun d hd => upd_get_ne _ _ hd] at htt
    have hacc : t.account b = openedUnmetered y.settings i c u e.debtQuanta := by rw [htt]; exact upd_get_same _ _ _
    refine ⟨t, hexec, ?_, fun d hd => ⟨?_, ?_⟩, fun _ => ⟨?_, ?_, ?_, ?_⟩, fun hn => absurd hn hel'⟩
    · rw [htt]; rfl
    · rw [htt]; exact upd_get_ne _ _ hd
    · rw [htt]; exact upd_get_ne _ _ hd
    · rw [htt]; exact upd_get_same _ _ _
    · rw [htt]; exact (hsrc .admitted (by decide)).trans (upd_get_same _ _ _)
    · rw [htt]; rw [hr] at hent; exact hent
    · rw [hacc]
      refine ⟨rfl, rfl, rfl, rfl, rfl, ?_, rfl⟩
      change min (0 + e.debtQuanta) 65535 = _
      rw [Nat.zero_add]

end

/-- Settles O48: the setting's clamp by arithmetic, its delivery by the lemmas above. -/
theorem configureClampsAndStores : Obligations.ConfigureClampsAndStores := by
  intro s tag claimed v request done plain
  have vlt : v.toNat < 65536 := v.isLt
  refine ⟨fun h => ?_, fun h => ?_, fun h => ?_, fun h => ?_, fun hv h => ?_, fun hv h => ?_, fun id hid h => ?_, fun h => ?_,
    fun h => ?_, fun h hv ht b i c u e hb hone hi hc hu he hl => ?_⟩
  · exact exec_configure_plain (x := .batch) h rfl rfl rfl fun _ _ _ => rfl
  · exact exec_configure_plain (x := .senseConfirm) h rfl rfl rfl fun _ _ _ => rfl
  · exact exec_configure_plain (x := .budget) h rfl rfl rfl fun _ _ _ => rfl
  · exact exec_configure_plain (x := .margin) h rfl rfl rfl fun _ _ _ => rfl
  · exact exec_configure_plain (x := .resume) h rfl (if_pos hv) rfl fun _ _ _ => rfl
  · refine exec_configure_plain (x := .tolerance) (w := v.toNat) h rfl (if_pos (by omega)) rfl fun hne u hu => ?_
    rcases hv with hv | ⟨hv, hq⟩
    · exact if_neg (by omega)
    · rcases hq with hq | hq
      · exact absurd (show v.toNat = s.settings.tolerance.code by rw [hv, hq]; rfl) hne
      · refine (if_pos hv).trans (forBays_none _ fun d => admitQuarantined_other ?_)
        unfold State.bay
        rw [hu]; exact hq d
  · exact configure_refused hid h
  · exact configure_interval h
  · exact configure_lowThreshold h
  · exact configure_accept h hv ht hb hone hi hc hu he hl

end Sys2Proof.Machine
end

section
/-! PROOF. What quanta laid on an account do, exactly (R74 to R76, R90, R108, R111). -/

namespace Sys2Proof.Machine

open Sys2Proof.Safety

variable {s : State}

/-! ### Notices raised on a condition -/

theorem source_raise (s : State) (k l : NoticeKind) (b : Bay) :
    (s.raise k b).source l = if l = k then joined (s.source l) b else s.source l := by
  by_cases h : l = k
  · subst h; rw [if_pos rfl]; exact upd_get_same _ _ _
  · rw [if_neg h]; exact source_upd_ne _ _ h

theorem source_raiseIf (s : State) (p : Bool) (k l : NoticeKind) (b : Bay) :
    (s.raiseIf p k b).source l = if l = k ∧ p = true then joined (s.source l) b else s.source l := by
  unfold State.raiseIf
  cases p
  · simp
  · rw [if_pos rfl, source_raise]
    simp

theorem raiseIf_fields (s : State) (p : Bool) (k : NoticeKind) (b : Bay) : ∃ v, s.raiseIf p k b = { s with
    notice := { s.notice with sources := v } } := by
  obtain ⟨v, h, -⟩ := s.raiseIf_only p k b
  exact ⟨v, h⟩

/-! ### The recomputation of the mode (R90) -/

/-- No FLUSH waits on the bay. -/
def noFlush (s : State) (b : Bay) : Prop := ∀ e ∈ s.dispatcher.queue, e.wait ≠ .flush b ∧ ∀ os, e.wait ≠ .flushAll os

theorem settleWaits_noFlush {b : Bay} (o : FlushOutcome) (h : noFlush s b) : s.settleWaits b { flush := some o } = s := by
  have hrec : s.recordFlush b { flush := some o } = s := recordFlush_same _ fun q hq o => by
    unfold Wait.record
    split
    · rename_i os hos; exact absurd hos ((h q hq).2 os)
    · rfl
  have hn : s.dispatcher.queue.filterMap (waitEnding s b { flush := some o }) = [] := by
    refine List.filterMap_eq_nil_iff.2 fun q hq => ?_
    obtain ⟨h1, h2⟩ := h q hq
    obtain ⟨kind, tag, level, payload, w⟩ := q
    cases w <;> simp_all [waitEnding]
  unfold State.settleWaits; dsimp only
  rw [hrec, hn]; rfl

theorem recomputeMode_noFlush {b : Bay} (h : noFlush s b) :
    (s.recomputeMode b).link = s.link ∧ (s.recomputeMode b).dispatcher = s.dispatcher := by
  unfold State.recomputeMode; dsimp only
  split
  · exact ⟨rfl, rfl⟩
  · split
    · rw [settleWaits_noFlush (s := s.modAccount b _) .frozen h]; exact ⟨rfl, rfl⟩
    · exact ⟨rfl, rfl⟩

/-! ### Quanta laid on an account -/

/-- The low-level test of the account once `n` quanta are laid (R111). -/
def lowAfter (s : State) (b : Bay) (n : Nat) : Bool :=
  (s.bay b).drawable && (s.account b).liveMetered && !(s.account b).lowNotified &&
    decide (((s.account b).stage7 n).level ≤ s.settings.lowThreshold)

theorem stage7_fields (a : Account) (n : Nat) : (a.stage7 n).live = a.live ∧ (a.stage7 n).metering = a.metering ∧
    (a.stage7 n).lowNotified = a.lowNotified ∧ (a.stage7 n).mode = a.mode ∧ (a.stage7 n).drain = a.drain ∧
    (a.stage7 n).capacity = a.capacity ∧ (a.stage7 n).committed = a.committed := by
  unfold Account.stage7
  split <;> exact ⟨rfl, rfl, rfl, rfl, rfl, rfl, rfl⟩

/-- Stage 7 and the recomputation of the mode after it (R76, steps 1). -/
theorem laid_only (s : State) (b : Bay) (n : Nat) : ∃ m d l q,
    (if ((s.layQuanta b n).account b).remaining = (s.account b).remaining then s.layQuanta b n
      else (s.layQuanta b n).recomputeMode b) = { s with
        accounts := upd s.accounts b fun a => { a.stage7 n with mode := m, drain := { a.drain with flush := d } }
        notice := (s.layQuanta b n).notice
        link := l, dispatcher := { s.dispatcher with queue := q } } ∧
    (m = (s.account b).mode ∨ m = effectiveMode s.settings ((s.account b).stage7 n)) ∧
    (noFlush s b → l = s.link ∧ q = s.dispatcher.queue) := by
  obtain ⟨v1, h1⟩ := raiseIf_fields (s.modAccount b (·.stage7 n))
    ((s.account b).overdraw = 0 && decide (0 < ((s.account b).stage7 n).overdraw)) .overdraw b
  have h1 : s.layQuanta b n = { s with
      accounts := upd s.accounts b (·.stage7 n), notice := { s.notice with sources := v1 } } := h1
  obtain ⟨-, -, -, hmode, hdrain, -, -⟩ := stage7_fields (s.account b) n
  have hacc : (s.layQuanta b n).account b = (s.account b).stage7 n := by rw [h1]; exact upd_get_same _ _ _
  split
  · refine ⟨((s.account b).stage7 n).mode, (s.account b).drain.flush, s.link, s.dispatcher.queue, ?_, .inl hmode, fun _ => ⟨rfl, rfl⟩⟩
    have e : upd s.accounts b (·.stage7 n) = upd s.accounts b fun a => { a.stage7 n with
        mode := ((s.account b).stage7 n).mode, drain := { a.drain with flush := (s.account b).drain.flush } } := by
      refine upd_congr _ _ ?_
      change (s.account b).stage7 n = { (s.account b).stage7 n with drain := (s.account b).drain }
      rw [← hdrain]
    rw [← e, h1]
  · obtain ⟨d, l, q, h⟩ := (s.layQuanta b n).recomputeMode_only b
    refine ⟨effectiveMode s.settings ((s.account b).stage7 n), d, l, q, ?_, .inr rfl, fun hn => ?_⟩
    · rw [h, h1]
      simp only [upd_upd]
      rw [upd_congr s.accounts b (g := fun a => { a.stage7 n with
        mode := effectiveMode s.settings ((s.account b).stage7 n), drain := { a.drain with flush := d } })]
      change { (s.account b).stage7 n with
        mode := effectiveMode s.settings ((s.account b).stage7 n)
        drain := { ((s.account b).stage7 n).drain with flush := d } } = _
      rw [hdrain]; rfl
    · have hn' : noFlush (s.layQuanta b n) b := by rw [h1]; exact hn
      obtain ⟨k1, k2⟩ := recomputeMode_noFlush hn'
      rw [h] at k1 k2
      rw [h1] at k1 k2
      exact ⟨k1, congrArg Dispatcher.queue k2⟩

theorem lowTest_eq (s : State) (b : Bay) : ∃ w : Bool, (w = true ↔ lowHit s b) ∧ s.lowTest b =
    { (s.raiseIf w .levelLow b) with accounts := upd s.accounts b fun a => { a with lowNotified := a.lowNotified || w } } := by
  by_cases h : lowHit s b
  · refine ⟨true, ⟨fun _ => h, fun _ => rfl⟩, ?_⟩
    rw [lowTest_hit h]
    have e : upd s.accounts b (fun a => { a with lowNotified := true }) =
        upd s.accounts b fun a => { a with lowNotified := a.lowNotified || true } := by
      refine upd_congr _ _ ?_
      rw [Bool.or_true]
    rw [← e]; rfl
  · refine ⟨false, ⟨fun k => (nomatch k), fun k => absurd k h⟩, ?_⟩
    rw [lowTest_miss h]
    have e : upd s.accounts b (fun a => { a with lowNotified := a.lowNotified || false }) = s.accounts := by
      refine upd_id _ _ _ ?_
      rw [Bool.or_false]
    rw [e]; rfl

/-- Quanta laid on an account, exactly: the account, the replies where no FLUSH waits, and the notices (R74, R111, R108). -/
theorem applyQuanta_exact (s : State) (b : Bay) (n : Nat) : ∃ m d v l q, s.applyQuanta b n = { s with
      accounts := upd s.accounts b fun a =>
        { a.stage7 n with
          mode := m, drain := { a.drain with flush := d }, lowNotified := a.lowNotified || lowAfter s b n }
      notice := { s.notice with sources := v }
      link := l, dispatcher := { s.dispatcher with queue := q } } ∧
    (m = (s.account b).mode ∨ m = effectiveMode s.settings ((s.account b).stage7 n)) ∧
    (noFlush s b → l = s.link ∧ q = s.dispatcher.queue) ∧
    ∀ k : NoticeKind, v[k.index] =
      if (k = .overdraw ∧ (s.account b).overdraw = 0 ∧ 0 < ((s.account b).stage7 n).overdraw) ∨
          (k = .levelLow ∧ lowAfter s b n = true) ∨
          (k = .allowanceExhausted ∧ (s.bay b).state = .admitted ∧ 0 < s.allowance b ∧ (s.applyQuanta b n).allowance b = 0) then
        joined (s.source k) b else s.source k := by
  obtain ⟨m, d, l, q, h2, hm, hl⟩ := laid_only s b n
  have hlay : (s.layQuanta b n).notice = ((s.modAccount b (·.stage7 n)).raiseIf
      ((s.account b).overdraw = 0 && decide (0 < ((s.account b).stage7 n).overdraw)) .overdraw b).notice := rfl
  obtain ⟨v1, hv1⟩ := raiseIf_fields (s.modAccount b (·.stage7 n))
    ((s.account b).overdraw = 0 && decide (0 < ((s.account b).stage7 n).overdraw)) .overdraw b
  generalize hy : (if ((s.layQuanta b n).account b).remaining = (s.account b).remaining then s.layQuanta b n
      else (s.layQuanta b n).recomputeMode b) = y at h2
  have hsrc2 : ∀ k, y.source k = if k = .overdraw ∧
      ((s.account b).overdraw = 0 && decide (0 < ((s.account b).stage7 n).overdraw)) = true then joined (s.source k) b
      else s.source k := fun k => by
    have := source_raiseIf (s.modAccount b (·.stage7 n))
      ((s.account b).overdraw = 0 && decide (0 < ((s.account b).stage7 n).overdraw)) .overdraw k b
    rw [h2]
    unfold State.source at this ⊢
    dsimp only
    rw [hlay]; exact this
  obtain ⟨f1, f2, f3, -, -, f6, f7⟩ := stage7_fields (s.account b) n
  have hacc2 : y.account b = { (s.account b).stage7 n with mode := m, drain := { (s.account b).drain with flush := d } } := by
    rw [h2]; exact upd_get_same _ _ _
  obtain ⟨w, hw, h3⟩ := lowTest_eq y b
  have hw : w = lowAfter s b n := by
    refine Bool.eq_iff_iff.2 (hw.trans ?_)
    have hb : y.bay b = s.bay b := by rw [h2]; rfl
    have hset : y.settings = s.settings := by rw [h2]
    have hlev : (y.account b).level = ((s.account b).stage7 n).level := by rw [hacc2]; rfl
    unfold lowHit lowAfter
    rw [hb, hset, hlev, hacc2]
    dsimp only
    rw [f1, f2, f3]
    simp [Account.liveMetered, and_assoc]
  subst hw
  have h3' : (s.layQuanta b n).afterStage7 b (s.account b).remaining = y.lowTest b := by
    unfold State.afterStage7; dsimp only
    rw [hy]
  have happ : s.applyQuanta b n = (y.lowTest b).raiseIf
      (decide (((y.lowTest b).bay b).state = .admitted) && decide (0 < s.allowance b) && decide ((y.lowTest b).allowance b = 0))
      .allowanceExhausted b := by
    unfold State.applyQuanta State.allowanceChecked; dsimp only
    rw [h3']
  obtain ⟨v3, h4⟩ := raiseIf_fields y (lowAfter s b n) .levelLow b
  obtain ⟨v4, h5⟩ := raiseIf_fields (y.lowTest b)
    (decide (((y.lowTest b).bay b).state = .admitted) && decide (0 < s.allowance b) && decide ((y.lowTest b).allowance b = 0))
    .allowanceExhausted b
  have hsrc3 : ∀ k, (y.lowTest b).source k = (y.raiseIf (lowAfter s b n) .levelLow b).source k := fun k => by rw [h3]; rfl
  have hbay3 : (y.lowTest b).bay b = s.bay b := by rw [h3, h4, h2]; rfl
  have hallow : (s.applyQuanta b n).allowance b = (y.lowTest b).allowance b := by rw [happ, h5]; rfl
  refine ⟨m, d, v4, l, q, ?_, hm, hl, fun k => ?_⟩
  · have e : (upd y.accounts b fun a => { a with lowNotified := a.lowNotified || lowAfter s b n }) = upd s.accounts b fun a =>
        { a.stage7 n with
          mode := m, drain := { a.drain with flush := d }, lowNotified := a.lowNotified || lowAfter s b n } := by
      rw [h2, upd_upd]
      refine upd_congr _ _ ?_
      change ({ ({ (s.account b).stage7 n with mode := m, drain := { (s.account b).drain with flush := d } } : Account) with
        lowNotified := ((s.account b).stage7 n).lowNotified || lowAfter s b n } : Account) = _
      rw [f3]; rfl
    rw [happ, h5, h3, h4, e, h2, hlay, hv1]
    rfl
  · have := source_raiseIf (y.lowTest b)
      (decide (((y.lowTest b).bay b).state = .admitted) && decide (0 < s.allowance b) && decide ((y.lowTest b).allowance b = 0))
      .allowanceExhausted k b
    rw [h5] at this
    change v4[k.index] = _ at this
    rw [this, hsrc3, source_raiseIf, hsrc2, hallow, hbay3]
    by_cases h1 : k = .overdraw
    · subst h1; simp
    · by_cases h2 : k = .levelLow
      · subst h2; simp
      · simp [h1, h2, and_assoc]

end Sys2Proof.Machine
end

section
/-! PROOF. USAGE (R66 to R76, R81, R93, R94): one entry, and two entries of one bay. -/

namespace Sys2Proof.Machine

open Sys2Proof.Safety

variable {s : State}

/-! ### The payload -/

/-- An entry as its bytes are read. -/
def usageOf (b : Bay) (small medium large spit : BitVec 32) (purges degrees : Byte) : UsageEntry where
  bay := BitVec.ofNat 8 b.val
  small := small.toNat
  medium := medium.toNat
  large := large.toNat
  spit := spit.toNat
  purges := purges.toNat
  temperature := degrees.toInt

theorem beNat_word (x : BitVec 32) : beNat (beBytes 4 x.toNat) = x.toNat := beNat_beBytes_of_lt (n := 4) x.isLt

theorem readUsageEntry_bytes (b : Bay) (small medium large spit : BitVec 32) (purges degrees : Byte) :
    readUsageEntry (usageEntryBytes b small medium large spit purges degrees) = usageOf b small medium large spit purges degrees := by
  have h1 : beNat (slice (usageEntryBytes b small medium large spit purges degrees) 1 4) = small.toNat := beNat_word small
  have h2 : beNat (slice (usageEntryBytes b small medium large spit purges degrees) 5 4) = medium.toNat := beNat_word medium
  have h3 : beNat (slice (usageEntryBytes b small medium large spit purges degrees) 9 4) = large.toNat := beNat_word large
  have h4 : beNat (slice (usageEntryBytes b small medium large spit purges degrees) 13 4) = spit.toNat := beNat_word spit
  unfold readUsageEntry
  rw [h1, h2, h3, h4]
  rfl

theorem withBay_usageOf (b : Bay) (small medium large spit : BitVec 32) (purges degrees : Byte) :
    withBay (readUsageEntry (usageEntryBytes b small medium large spit purges degrees)) =
      some (b, usageOf b small medium large spit purges degrees) := by
  rw [readUsageEntry_bytes]
  unfold withBay
  rw [show (usageOf b small medium large spit purges degrees).bay = BitVec.ofNat 8 b.val from rfl, bayOfByte_bay]
  rfl

/-- A USAGE of one entry. -/
theorem serveUsage_one {e : QueueEntry} {b : Bay} {small medium large spit : BitVec 32} {purges degrees : Byte}
    (hp : e.payload = 0x01#8 :: usageEntryBytes b small medium large spit purges degrees) :
    s.serveUsage e = (s.usageEntry b (usageOf b small medium large spit purges degrees)).1.finish e .ok
      (0x01#8 :: (s.usageEntry b (usageOf b small medium large spit purges degrees)).2.bytes) := by
  have items : readList 19 1 8 e.payload = some [usageEntryBytes b small medium large spit purges degrees] := by rw [hp]; rfl
  have entries : allSome ([usageEntryBytes b small medium large spit purges degrees].map fun d => withBay (readUsageEntry d)) =
      some [(b, usageOf b small medium large spit purges degrees)] := by
    rw [List.map_cons, withBay_usageOf]; rfl
  unfold State.serveUsage
  rw [items]; dsimp only
  rw [entries]; dsimp only [State.usageEntries]
  rw [List.flatMap_cons, List.flatMap_nil, List.append_nil]; rfl

/-- A USAGE of two entries of one bay. -/
theorem serveUsage_two {e : QueueEntry} {b : Bay} {small medium large spit : BitVec 32} {purges degrees : Byte}
    {small' medium' large' spit' : BitVec 32} {purges' degrees' : Byte}
    (hp : e.payload = 0x02#8 :: (usageEntryBytes b small medium large spit purges degrees ++
      usageEntryBytes b small' medium' large' spit' purges' degrees')) :
    s.serveUsage e = (((s.usageEntry b (usageOf b small medium large spit purges degrees)).1.usageEntry b
      (usageOf b small' medium' large' spit' purges' degrees')).1).finish e .ok (byteOf 2 ::
        [(s.usageEntry b (usageOf b small medium large spit purges degrees)).2,
          ((s.usageEntry b (usageOf b small medium large spit purges degrees)).1.usageEntry b
            (usageOf b small' medium' large' spit' purges' degrees')).2].flatMap EntryReply.bytes) := by
  have items : readList 19 1 8 e.payload = some [usageEntryBytes b small medium large spit purges degrees,
      usageEntryBytes b small' medium' large' spit' purges' degrees'] := by rw [hp]; rfl
  have entries : allSome ([usageEntryBytes b small medium large spit purges degrees,
      usageEntryBytes b small' medium' large' spit' purges' degrees'].map fun d => withBay (readUsageEntry d)) =
      some [(b, usageOf b small medium large spit purges degrees), (b, usageOf b small' medium' large' spit' purges' degrees')] := by
    rw [List.map_cons, List.map_cons, withBay_usageOf, withBay_usageOf]; rfl
  unfold State.serveUsage
  rw [items]; dsimp only
  rw [entries]; dsimp only [State.usageEntries]
  rfl

/-! ### The examination after an entry (R76, R93) -/

theorem mayGrant_false {n : Bus} (h : (s.bus n).free = false ∨ s.supply.state = .expired) : ¬s.mayGrant n = true := by
  unfold State.mayGrant
  rcases h with h | h <;> simp [h]

/-- While no grant is due on a bay's bus, none is made (R28). -/
theorem grant_none {b : Bay} (h : noGrantDue s b) (hb : (s.port b).posted = none) : s.grant (busOf b) = s := by
  unfold State.grant
  by_cases hf : (s.bus (busOf b)).free = false ∨ s.supply.state = .expired
  · rw [if_neg (mayGrant_false hf)]
  · have hc : s.choice (busOf b) = none := by
      refine State.choice_eq_none_iff.2 (State.bestClass_eq_none_iff.2 fun c hc => ?_)
      by_cases hcb : c = b
      · rw [hcb]; exact hb
      · have := h.resolve_left fun k => hf (.inl k)
        exact this.resolve_left (fun k => hf (.inr k)) c hcb hc
    rw [hc]
    split <;> rfl

theorem nextDue_commit {b : Bay} (hc : (s.account b).commitState = .idle) (ho : s.markOrders b = [])
    (hr : (s.bay b).rechallenge ≠ .running) : s.nextDue b = some .commit ↔ s.commitDue b = true := by
  have hcheck : ¬s.checkReadDue b = true := by
    unfold State.checkReadDue State.awaitsCheck
    rw [hc]; simp
  have hmark : s.markDue b = none := by
    unfold State.markDue
    rw [ho]; split <;> rfl
  unfold State.nextDue
  rw [if_neg hcheck, hmark]
  dsimp only
  have hstep : s.stepDue b ≠ some .commit := by
    unfold State.stepDue State.challengeStep
    repeat' split
    all_goals simp
  by_cases hd : s.commitDue b = true
  · have : (s.bay b).rechallenge != .running := bne_iff_ne.2 hr
    simp [hd, this]
  · simp only [hd, Bool.false_and, Bool.false_eq_true, if_false, iff_false]
    exact hstep

theorem commitDue_of_nextDue {b : Bay} (h : s.nextDue b = some .commit) : s.commitDue b = true := by
  by_contra hd
  unfold State.nextDue at h
  rw [Bool.not_eq_true] at hd
  rw [hd] at h
  simp only [Bool.false_and, Bool.false_eq_true, if_false] at h
  unfold State.stepDue State.challengeStep at h
  repeat' split at h
  all_goals simp at h

theorem inProgress_iff (s : State) (b : Bay) : s.inProgress b = true ↔ ∃ r, (s.bus (busOf b)).current = some r ∧ r.bay = b := by
  unfold State.inProgress State.selected
  cases (s.bus (busOf b)).current <;> simp

/-- Nothing is examined where no commit can be due, or the bay has something posted or in progress. -/
theorem examine_same {b : Bay} (h : (s.account b).metering = .unmetered ∨ (s.account b).commitState ≠ .idle ∨
    (s.port b).posted.isSome = true ∨ ∃ r, (s.bus (busOf b)).current = some r ∧ r.bay = b) : s.examine b = s := by
  rcases s.examine_cases b with h' | ⟨hp, hi, hd, -⟩
  · exact h'
  · exfalso
    have hc := commitDue_of_nextDue hd
    unfold State.commitDue Machine.commitDue at hc
    simp only [Bool.and_eq_true, decide_eq_true_eq] at hc
    rcases h with h | h | h | h
    · exact Metering.noConfusion (h.symm.trans hc.1.1.1.1.1.2)
    · exact h hc.1.1.2
    · rw [hp] at h; exact nomatch h
    · rw [(inProgress_iff s b).2 h] at hi; exact nomatch hi

/-- The examination of a bay with nothing posted, nothing in progress and nothing earlier due (R93, R94). -/
theorem examine_idle {b : Bay} (hc : (s.account b).commitState = .idle) (hp : (s.port b).posted = none)
    (hi : ∀ r, (s.bus (busOf b)).current = some r → r.bay ≠ b) (hg : noGrantDue s b) (ho : s.markOrders b = [])
    (hr : (s.bay b).rechallenge ≠ .running) : s.examine b = if s.commitDue b then s.startCommit b else s := by
  have hin : ¬s.inProgress b = true := fun k => by
    obtain ⟨r, h1, h2⟩ := (inProgress_iff s b).1 k
    exact hi r h1 h2
  by_cases hd : s.commitDue b = true
  · have hn := (nextDue_commit hc ho hr).2 hd
    unfold State.examine State.chooseNext
    rw [if_pos hn, if_pos hd, hn, if_neg (by simp [hp, hin]), grant_none hg hp]
    rfl
  · unfold State.examine
    rw [if_neg fun k => hd ((nextDue_commit hc ho hr).1 k), if_neg hd]

end Sys2Proof.Machine
end

section
/-! PROOF. USAGE: what an accounted entry leaves (R67 to R76, R81). -/

namespace Sys2Proof.Machine

open Sys2Proof.Safety

variable {s : State}

/-! ### The account -/

/-- An account once an accumulator's remainder is its residue and its quanta are laid (R73 to R75). -/
def Account.accounted (a : Account) (acc : Nat) : Account := ({ a with residue := residueOf acc } : Account).stage7 (quantaOf acc)

theorem accounted_kept (a : Account) (acc : Nat) : ∃ p o n, a.accounted acc = { a with
    residue := acc % 100000000000000, pending := p, overdraw := o, unmeteredCount := n } := by
  unfold Account.accounted Account.stage7
  split
  · exact ⟨_, _, _, rfl⟩
  · exact ⟨_, _, _, rfl⟩

theorem accounted_metered {a : Account} (acc : Nat) (h : a.metering = .metered) : a.accounted acc = { a with
    residue := acc % 100000000000000
    pending := a.pending + min (acc / 100000000000000) a.remaining
    overdraw := min (a.overdraw + (acc / 100000000000000 - min (acc / 100000000000000) a.remaining)) 65535 } := by
  unfold Account.accounted Account.stage7
  dsimp only
  rw [h]; rfl

theorem accounted_unmetered {a : Account} (acc : Nat) (h : a.metering = .unmetered) : a.accounted acc = { a with
    residue := acc % 100000000000000
    unmeteredCount := min (a.unmeteredCount + acc / 100000000000000) 65535 } := by
  unfold Account.accounted Account.stage7
  dsimp only
  rw [h]; rfl

/-- The low-level test of an account that is left so (R111). -/
def lowLeft (s : State) (b : Bay) (a : Account) : Prop :=
  (s.account b).live = true ∧ (s.account b).metering = .metered ∧ (s.account b).lowNotified = false ∧
    a.level ≤ s.settings.lowThreshold

theorem level_congr {a a' : Account} (h1 : a.live = a'.live) (h2 : a.metering = a'.metering) (h3 : a.capacity = a'.capacity)
    (h4 : a.committed = a'.committed) (h5 : a.pending = a'.pending) : a.level = a'.level := by
  unfold Account.level Account.remaining
  rw [h1, h2, h3, h4, h5]

/-- The account with the mode, the FLUSH demand and the low-level note that its recomputation and its test leave. -/
def Account.noted (a : Account) (m : Mode) (d w : Bool) : Account :=
  { a with mode := m, drain := { a.drain with flush := d }, lowNotified := w }

/-- The notices an entry raises (R74, R108, R111), the account being left as `a` and the allowance as `n`. -/
def noticed (s : State) (b : Bay) (a : Account) (n : Nat) (k : NoticeKind) : Prop :=
  (k = .overdraw ∧ (s.account b).overdraw = 0 ∧ 0 < a.overdraw) ∨ (k = .levelLow ∧ lowLeft s b a) ∨
    (k = .allowanceExhausted ∧ (s.bay b).state = .admitted ∧ 0 < s.allowance b ∧ n = 0)

/-- An accounted entry, exactly (R67, R73 to R76). -/
theorem accountEntry_exact {b : Bay} (e : UsageEntry) (hd : (s.bay b).drawable = true) :
    ∃ m d w v l q, s.accountEntry b e = { s with
        accounts := upd s.accounts b fun a => (a.accounted ((s.account b).accumulate e)).noted m d w
        notice := { s.notice with sources := v }
        link := l, dispatcher := { s.dispatcher with queue := q } } ∧
      (m = (s.account b).mode ∨
        m = effectiveMode s.settings ((s.account b).accounted ((s.account b).accumulate e))) ∧
      (w = true ↔ (s.account b).lowNotified = true ∨ lowLeft s b ((s.account b).accounted ((s.account b).accumulate e))) ∧
      (noFlush s b → l = s.link ∧ q = s.dispatcher.queue) ∧
      ∀ k : NoticeKind,
        (noticed s b ((s.account b).accounted ((s.account b).accumulate e)) ((s.accountEntry b e).allowance b) k →
          v[k.index] = joined (s.source k) b) ∧
        (¬noticed s b ((s.account b).accounted ((s.account b).accumulate e)) ((s.accountEntry b e).allowance b) k →
          v[k.index] = s.source k) := by
  generalize hacc : (s.account b).accumulate e = acc
  have he : s.accountEntry b e = (s.setResidue b (residueOf acc)).applyQuanta b (quantaOf acc) := by
    unfold State.accountEntry; dsimp only; rw [hacc]
  obtain ⟨m, d, v, l, q, h, hm, hl, hv⟩ := applyQuanta_exact (s.setResidue b (residueOf acc)) b (quantaOf acc)
  have ha : (s.setResidue b (residueOf acc)).account b = { s.account b with residue := residueOf acc } := upd_get_same _ _ _
  have hst : ((s.setResidue b (residueOf acc)).account b).stage7 (quantaOf acc) = (s.account b).accounted acc := by rw [ha]; rfl
  have hlow : lowAfter (s.setResidue b (residueOf acc)) b (quantaOf acc) = true ↔
      lowLeft s b ((s.account b).accounted acc) := by
    unfold lowAfter lowLeft
    rw [hst, ha, show (s.setResidue b (residueOf acc)).bay b = s.bay b from rfl,
      show (s.setResidue b (residueOf acc)).settings = s.settings from rfl, hd]
    simp [Account.liveMetered, and_assoc]
  have hallow : (s.setResidue b (residueOf acc)).allowance b = s.allowance b := by
    unfold State.allowance; rw [ha]; rfl
  refine ⟨m, d, (s.account b).lowNotified || lowAfter (s.setResidue b (residueOf acc)) b (quantaOf acc), v, l, q, ?_, ?_, ?_, ?_, ?_⟩
  · rw [he, h]
    have k : (upd (s.setResidue b (residueOf acc)).accounts b fun a =>
        { a.stage7 (quantaOf acc) with
          mode := m, drain := { a.drain with flush := d }
          lowNotified := a.lowNotified || lowAfter (s.setResidue b (residueOf acc)) b (quantaOf acc) }) =
        upd s.accounts b fun a => (a.accounted acc).noted m d
          ((s.account b).lowNotified || lowAfter (s.setResidue b (residueOf acc)) b (quantaOf acc)) := by
      refine (upd_upd s.accounts b (fun a => { a with residue := residueOf acc }) _).trans (upd_congr _ _ ?_)
      obtain ⟨p, o, n, hk⟩ := accounted_kept (s.account b) acc
      change ({ (s.account b).accounted acc with
        mode := m, drain := { (s.account b).drain with flush := d }
        lowNotified := (s.account b).lowNotified || lowAfter (s.setResidue b (residueOf acc)) b (quantaOf acc) } : Account) =
        ((s.account b).accounted acc).noted m d _
      unfold Account.noted
      rw [hk]
    rw [k]; rfl
  · rw [hst, ha] at hm; exact hm
  · rw [Bool.or_eq_true, hlow]
  · exact hl
  · intro k
    have hk := hv k
    rw [hst, ha, hallow, ← he] at hk
    refine ⟨fun h => hk.trans (if_pos ?_), fun h => hk.trans (if_neg ?_)⟩
    · rw [hlow]; exact h
    · rw [hlow]; exact h

/-! ### The commit that the entry brings due -/

/-- The account whose commit starts with all that is pending (R94). -/
def Account.committing (a : Account) : Account :=
  { a with inFlight := a.pending, target := a.committed + a.pending, commitState := .advance }

theorem startCommit_eq (s : State) (b : Bay) : s.startCommit b = { s with
    accounts := upd s.accounts b Account.committing
    ports := upd s.ports b fun q => { q with posted := some {
      op := .advance (s.account b).index ((s.account b).committed + (s.account b).pending)
      attempt := (s.account b).failures + 1 } } } := by
  have : upd s.accounts b Account.committing = upd s.accounts b fun a => { a with
      inFlight := a.pending, target := (s.account b).committed + (s.account b).pending, commitState := .advance } :=
    upd_congr _ _ rfl
  rw [this]; rfl

theorem examine_shape (s : State) (b : Bay) : ∃ f t c ps us, s.examine b = { s with
    accounts := upd s.accounts b fun a => { a with inFlight := f, target := t, commitState := c }
    ports := ps, buses := us } := by
  rcases s.examine_cases b with h | ⟨-, -, -, h⟩
  · refine ⟨(s.account b).inFlight, (s.account b).target, (s.account b).commitState, s.ports, s.buses, h.trans ?_⟩
    have : (upd s.accounts b fun a => { a with
      inFlight := (s.account b).inFlight, target := (s.account b).target, commitState := (s.account b).commitState }) = s.accounts :=
      upd_id _ _ _ rfl
    rw [this]
  · obtain ⟨v, u, hg, -⟩ := s.grant_only (busOf b)
    refine ⟨(s.account b).pending, (s.account b).committed + (s.account b).pending, .advance, (s.examine b).ports,
      (s.examine b).buses, ?_⟩
    have : upd s.accounts b Account.committing = upd s.accounts b fun a => { a with
        inFlight := (s.account b).pending, target := (s.account b).committed + (s.account b).pending, commitState := .advance } :=
      upd_congr _ _ rfl
    rw [← this, h, startCommit_eq, hg]

/-! ### A USAGE of one entry -/

theorem accumulate_usageOf {a : Account} {c : CalibrationCopy} (h : a.calibration = some c) (b : Bay)
    (small medium large spit : BitVec 32) (purges degrees : Byte) :
    a.accumulate (usageOf b small medium large spit purges degrees) =
      a.residue + usageVolume c small medium large spit purges degrees := by
  unfold Account.accumulate
  rw [h]
  exact Nat.add_assoc _ _ _

/-- A taken USAGE of one entry of a drawable bay leaves what its owner does, but for the queue, the line and the free values. -/
theorem exec_usage_one {tag claimed : Byte} {b : Bay} {small medium large spit : BitVec 32} {purges degrees : Byte} {p : List Byte}
    (hp : p = 0x01#8 :: usageEntryBytes b small medium large spit purges degrees) (h : admits s .usage tag claimed p)
    (hd : (s.bay b).drawable = true) {w u : State} (hw : w = holding s (entryOf s .usage tag claimed p .owner))
    (hu : u = (w.accountEntry b (usageOf b small medium large spit purges degrees)).examine b) :
    ∃ t l n q, exec (.usage tag claimed p) s = .next t ∧
      t = { u with link := l, free := n, dispatcher := { u.dispatcher with queue := q } } ∧
      (u.link = w.link → u.dispatcher.queue = w.dispatcher.queue →
        t.link = (placing s (replyOf (entryOf s .usage tag claimed p .owner) .ok
          (0x01#8 :: (u.accountedReply b (quantaOf ((s.account b).accumulate
            (usageOf b small medium large spit purges degrees)))).bytes))).link) := by
  have hue : w.usageEntry b (usageOf b small medium large spit purges degrees) = (u, u.accountedReply b
      (quantaOf ((s.account b).accumulate (usageOf b small medium large spit purges degrees)))) := by
    unfold State.usageEntry
    rw [if_pos (show (w.bay b).drawable = true by rw [hw]; exact hd), ← hu, hw]
    rfl
  have hserve : (holding s (entryOf s .usage tag claimed p .owner)).serve (entryOf s .usage tag claimed p .owner) =
      u.finish (entryOf s .usage tag claimed p .owner) .ok (0x01#8 :: (u.accountedReply b
        (quantaOf ((s.account b).accumulate (usageOf b small medium large spit purges degrees)))).bytes) := by
    refine (serveUsage_one (s := holding s (entryOf s .usage tag claimed p .owner)) (e := entryOf s .usage tag claimed p .owner)
      (b := b) (small := small) (medium := medium) (large := large) (spit := spit) (purges := purges) (degrees := degrees) hp).trans ?_
    rw [← hw, hue]
  obtain ⟨t, hexec, ⟨l, n, ht⟩, hone, -⟩ := exec_event h hserve
  obtain ⟨l', q', hf⟩ := finish_only u (entryOf s .usage tag claimed p .owner) .ok (0x01#8 :: (u.accountedReply b
    (quantaOf ((s.account b).accumulate (usageOf b small medium large spit purges degrees)))).bytes)
  refine ⟨t, l, n, q', hexec, by rw [ht, hf], fun hl hq => hone _ ?_⟩
  refine (finish_link (others := s.dispatcher.queue) ?_ h.2.1 _ _).trans ?_
  · rw [hq, hw]; rfl
  · rw [hl, hw]; rfl

theorem drawn_usageOf {b : Bay} {small medium large spit : BitVec 32} {purges degrees : Byte} :
    (usageOf b small medium large spit purges degrees).drawn = true ↔
      0 < small.toNat ∨ 0 < medium.toNat ∨ 0 < large.toNat ∨ 0 < spit.toNat ∨ 0 < purges.toNat := by
  unfold UsageEntry.drawn
  simp only [Bool.or_eq_true, decide_eq_true_eq, or_assoc]
  rfl

/-- An entry of a bay that is not drawable (R109, R110). -/
theorem exec_usage_stray {tag claimed : Byte} {b : Bay} {small medium large spit : BitVec 32} {purges degrees : Byte} {p : List Byte}
    (hp : p = 0x01#8 :: usageEntryBytes b small medium large spit purges degrees) (h : admits s .usage tag claimed p)
    (hd : (s.bay b).drawable = false) :
    exec (.usage tag claimed p) s = .next (answered
      (if 0 < small.toNat ∨ 0 < medium.toNat ∨ 0 < large.toNat ∨ 0 < spit.toNat ∨ 0 < purges.toNat then
          withSource s .strayUsage (joined (s.source .strayUsage) b) else s) (entryOf s .usage tag claimed p .owner) .ok
        ([0x01#8, 0x21#8] ++ beBytes 2 0 ++ beBytes 2 (s.account b).committed ++ beBytes 2 (s.account b).pending ++
          beBytes 2 0 ++ beBytes 2 (s.account b).level ++ beBytes 2 (s.account b).overdraw)) := by
  have key : ∀ w : State, (w.bay b).drawable = false →
      w.usageEntry b (usageOf b small medium large spit purges degrees) =
      (if 0 < small.toNat ∨ 0 < medium.toNat ∨ 0 < large.toNat ∨ 0 < spit.toNat ∨ 0 < purges.toNat then
        withSource w .strayUsage (joined (w.source .strayUsage) b) else w, notDrawableReply (w.account b)) := fun w hw => by
    unfold State.usageEntry State.raiseIf
    rw [if_neg (by rw [hw]; exact Bool.false_ne_true)]
    refine congrArg (·, _) ?_
    by_cases hx : 0 < small.toNat ∨ 0 < medium.toNat ∨ 0 < large.toNat ∨ 0 < spit.toNat ∨ 0 < purges.toNat
    · rw [if_pos hx, if_pos (drawn_usageOf.2 hx)]; rfl
    · rw [if_neg hx, if_neg fun k => hx (drawn_usageOf.1 k)]
  refine exec_answers h ?_ ?_ ?_
  · refine (serveUsage_one (s := holding s (entryOf s .usage tag claimed p .owner)) (e := entryOf s .usage tag claimed p .owner)
      (b := b) (small := small) (medium := medium) (large := large) (spit := spit) (purges := purges) (degrees := degrees) hp).trans ?_
    rw [key (holding s (entryOf s .usage tag claimed p .owner)) hd]
    split <;> rfl
  · split <;> rfl
  · split <;> rfl

end Sys2Proof.Machine
end

section
/-! PROOF. USAGE: the obligation. -/

namespace Sys2Proof.Machine

open Sys2Proof.Safety

variable {s : State}

/-- The account with a commit's figures. -/
def Account.inCommit (a : Account) (f g : Nat) (c : CommitState) : Account :=
  { a with inFlight := f, target := g, commitState := c }

/-- The account an entry leaves, but for its accumulator: what its mode, its demands and its commit have become. -/
structure Account.LeftBy where
  mode : Mode
  flush : Bool
  low : Bool
  inFlight : Nat
  target : Nat
  commitState : CommitState

/-- The account an entry leaves. -/
def Account.leftBy (a : Account) (acc : Nat) (x : Account.LeftBy) : Account :=
  ((a.accounted acc).noted x.mode x.flush x.low).inCommit x.inFlight x.target x.commitState

theorem leftBy_kept (a : Account) (acc : Nat) (x : Account.LeftBy) :
    (a.leftBy acc x).residue = acc % 100000000000000 ∧ (a.leftBy acc x).committed = a.committed ∧
      (a.leftBy acc x).level = (a.accounted acc).level ∧ (a.leftBy acc x).pending = (a.accounted acc).pending ∧
      (a.leftBy acc x).overdraw = (a.accounted acc).overdraw ∧
      (a.leftBy acc x).unmeteredCount = (a.accounted acc).unmeteredCount := by
  obtain ⟨p, o, n, h⟩ := accounted_kept a acc
  unfold Account.leftBy
  rw [h]
  exact ⟨rfl, rfl, level_congr rfl rfl rfl rfl rfl, rfl, rfl, rfl⟩

/-- No commit can start at the bay's account now: it is UNMETERED or a commit is in progress, or the bay has something posted or in
progress (R93, R22). -/
def noStart (s : State) (b : Bay) : Prop :=
  (s.account b).metering = .unmetered ∨ (s.account b).commitState ≠ .idle ∨ (s.port b).posted.isSome = true ∨
    ∃ r, (s.bus (busOf b)).current = some r ∧ r.bay = b

/-- A commit that is due starts at once: the bay has nothing posted, nothing in progress and nothing earlier due, and no grant is due
on its bus (R93, R22, R28). -/
structure mayStart (s : State) (b : Bay) : Prop where
  commitState : (s.account b).commitState = .idle
  posted : (s.port b).posted = none
  current : ∀ r, (s.bus (busOf b)).current = some r → r.bay ≠ b
  grant : noGrantDue s b
  orders : s.markOrders b = []
  rechallenge : (s.bay b).rechallenge ≠ .running

/-- An accounted entry and the examination after it (R67, R73 to R76, R93, R94). -/
theorem entry_exact {b : Bay} (e : UsageEntry) (hd : (s.bay b).drawable = true) {acc : Nat}
    (hacc : (s.account b).accumulate e = acc) {u : State} (hu : u = (s.accountEntry b e).examine b) :
    ∃ x v l q ps us, u = { s with
        accounts := upd s.accounts b fun a => a.leftBy acc x
        ports := ps, buses := us
        notice := { s.notice with sources := v }
        link := l, dispatcher := { s.dispatcher with queue := q } } ∧
      (x.mode = (s.account b).mode ∨ x.mode = effectiveMode s.settings ((s.account b).accounted acc)) ∧
      (x.low = true ↔ (s.account b).lowNotified = true ∨ lowLeft s b (u.account b)) ∧
      (noFlush s b → l = s.link ∧ q = s.dispatcher.queue) ∧
      (∀ k : NoticeKind,
        (noticed s b (u.account b) (u.allowance b) k → v[k.index] = joined (s.source k) b) ∧
        (¬noticed s b (u.account b) (u.allowance b) k → v[k.index] = s.source k)) ∧
      (noStart s b → x.inFlight = (s.account b).inFlight ∧ x.target = (s.account b).target ∧
        x.commitState = (s.account b).commitState ∧ ps = s.ports ∧ us = s.buses) ∧
      (mayStart s b → us = s.buses ∧
        (commitDue s.settings (s.bay b) { u.account b with commitState := .idle } = true →
          x.inFlight = (u.account b).pending ∧ x.target = (u.account b).committed + (u.account b).pending ∧
          x.commitState = .advance ∧ ps = s.ports.set b { s.port b with posted := some {
              op := .advance (s.account b).index ((u.account b).committed + (u.account b).pending),
              attempt := (s.account b).failures + 1 } }) ∧
        (commitDue s.settings (s.bay b) { u.account b with commitState := .idle } = false →
          x.inFlight = (s.account b).inFlight ∧ x.target = (s.account b).target ∧ x.commitState = .idle ∧ ps = s.ports)) := by
  obtain ⟨m, d, w, v, l, q, h, hm, hw, hl, hv⟩ := accountEntry_exact e hd
  rw [hacc] at h hm hw hv
  generalize hs' : s.accountEntry b e = s' at *
  obtain ⟨f, g, c, ps, us, hx⟩ := examine_shape s' b
  obtain ⟨p, o, n, hk⟩ := accounted_kept (s.account b) acc
  have ha' : s'.account b = ((s.account b).accounted acc).noted m d w := by rw [h]; exact upd_get_same _ _ _
  have hu' : u = { s with
        accounts := upd s.accounts b fun a => a.leftBy acc ⟨m, d, w, f, g, c⟩
        ports := ps, buses := us
        notice := { s.notice with sources := v }
        link := l, dispatcher := { s.dispatcher with queue := q } } := by
    rw [hu, hx, h, upd_upd]; rfl
  have hua : u.account b = (s.account b).leftBy acc ⟨m, d, w, f, g, c⟩ := by rw [hu']; exact upd_get_same _ _ _
  obtain ⟨-, -, hlev, -, hov, -⟩ := leftBy_kept (s.account b) acc ⟨m, d, w, f, g, c⟩
  have hallow : s'.allowance b = u.allowance b := by
    unfold State.allowance
    rw [ha', hua, show s'.bay b = u.bay b by rw [hu', h]; rfl]
    rfl
  have hpend : (u.account b).pending = (s'.account b).pending := by rw [hua, ha']; rfl
  have hcom : (u.account b).committed = (s'.account b).committed := by rw [hua, ha']; rfl
  have quiet : s'.examine b = s' → f = (s.account b).inFlight ∧ g = (s.account b).target ∧
      c = (s.account b).commitState ∧ ps = s.ports ∧ us = s.buses := fun hsame => by
    rw [hsame] at hx
    have h2 : (s'.account b) = { s'.account b with inFlight := f, target := g, commitState := c } :=
      (congrArg (fun z : State => z.account b) hx).trans (upd_get_same _ _ _)
    rw [ha', hk] at h2
    have h3 : s'.ports = ps := congrArg State.ports hx
    have h4 : s'.buses = us := congrArg State.buses hx
    refine ⟨(congrArg Account.inFlight h2).symm, (congrArg Account.target h2).symm, (congrArg Account.commitState h2).symm, ?_, ?_⟩
    · rw [← h3, h]
    · rw [← h4, h]
  refine ⟨⟨m, d, w, f, g, c⟩, v, l, q, ps, us, hu', hm, ?_, hl, fun k => ?_, fun hq => ?_, fun hi => ?_⟩
  · rw [hw]
    unfold lowLeft
    rw [hua, hlev]
  · have := hv k
    unfold noticed lowLeft at this ⊢
    rw [hua, hlev, hov, ← hallow]
    exact this
  · refine quiet (examine_same ?_)
    rw [ha', hk, h]
    exact hq
  · have hex := examine_idle (s := s') (b := b) (by rw [ha', hk]; exact hi.commitState) (by rw [h]; exact hi.posted)
      (by rw [h]; exact hi.current) (by rw [h]; exact hi.grant) (by rw [h]; exact hi.orders) (by rw [h]; exact hi.rechallenge)
    have hdue : s'.commitDue b = commitDue s.settings (s.bay b) { u.account b with commitState := .idle } := by
      unfold State.commitDue
      rw [ha', hua, h]
      unfold Account.leftBy
      rw [hk]
      have := hi.commitState
      unfold commitDue
      change _ = _
      simp [Account.noted, Account.inCommit, this]
      rfl
    rw [hdue] at hex
    cases hcd : commitDue s.settings (s.bay b) { u.account b with commitState := .idle } with
    | false =>
      rw [hcd, if_neg Bool.false_ne_true] at hex
      obtain ⟨h1, h2, h3, h4, h5⟩ := quiet hex
      exact ⟨h5, (nomatch ·), fun _ => ⟨h1, h2, h3.trans hi.commitState, h4⟩⟩
    | true =>
      rw [hcd, if_pos rfl, startCommit_eq, hx] at hex
      have h2 : ({ s'.account b with inFlight := f, target := g, commitState := c } : Account) = (s'.account b).committing :=
        (upd_get_same _ _ _).symm.trans ((congrArg (fun z : State => z.account b) hex).trans (upd_get_same _ _ _))
      have h3 : us = s'.buses := congrArg State.buses hex
      have h4 := congrArg State.ports hex
      dsimp only at h4
      refine ⟨by rw [h3, h], fun _ => ?_, (nomatch ·)⟩
      rw [hpend, hcom]
      refine ⟨congrArg Account.inFlight h2, congrArg Account.target h2, congrArg Account.commitState h2, h4.trans ?_⟩
      have hi' : (s'.account b).index = (s.account b).index := by rw [ha', hk]; rfl
      have hf' : (s'.account b).failures = (s.account b).failures := by rw [ha', hk]; rfl
      rw [hi', hf', show s'.ports = s.ports by rw [h]]
      rfl

/-- An accounted entry of a USAGE of one (R66 to R76, R81, R93, R94). -/
theorem usage_one_accounted {tag claimed : Byte} {b : Bay} {small medium large spit : BitVec 32} {purges degrees : Byte}
    {p : List Byte} (hp : p = 0x01#8 :: usageEntryBytes b small medium large spit purges degrees)
    (h : admits s .usage tag claimed p) (hd : (s.bay b).drawable = true) {acc : Nat}
    (hacc : (s.account b).accumulate (usageOf b small medium large spit purges degrees) = acc) :
    ∃ t x v l n q ps us, exec (.usage tag claimed p) s = .next t ∧ t = { s with
        accounts := upd s.accounts b fun a => a.leftBy acc x
        ports := ps, buses := us
        notice := { s.notice with sources := v }
        link := l, free := n, dispatcher := { s.dispatcher with queue := q } } ∧
      (x.low = true ↔ (s.account b).lowNotified = true ∨ lowLeft s b (t.account b)) ∧
      (noFlush s b → t.link = (placing s (replyOf (entryOf s .usage tag claimed p .owner) .ok
        (0x01#8 :: (t.accountedReply b (quantaOf acc)).bytes))).link) ∧
      (∀ k : NoticeKind,
        (noticed s b (t.account b) (t.allowance b) k → v[k.index] = joined (s.source k) b) ∧
        (¬noticed s b (t.account b) (t.allowance b) k → v[k.index] = s.source k)) ∧
      (noStart s b → x.inFlight = (s.account b).inFlight ∧ x.target = (s.account b).target ∧
        x.commitState = (s.account b).commitState ∧ ps = s.ports ∧ us = s.buses) ∧
      (mayStart s b → us = s.buses ∧
        (commitDue s.settings (s.bay b) { t.account b with commitState := .idle } = true →
          x.inFlight = (t.account b).pending ∧ x.target = (t.account b).committed + (t.account b).pending ∧
          x.commitState = .advance ∧ ps = s.ports.set b { s.port b with posted := some {
              op := .advance (s.account b).index ((t.account b).committed + (t.account b).pending),
              attempt := (s.account b).failures + 1 } }) ∧
        (commitDue s.settings (s.bay b) { t.account b with commitState := .idle } = false →
          x.inFlight = (s.account b).inFlight ∧ x.target = (s.account b).target ∧ x.commitState = .idle ∧ ps = s.ports)) := by
  obtain ⟨t, l, n, q, hexec, ht, hlink⟩ := exec_usage_one hp h hd rfl rfl
  obtain ⟨x, v, l', q', ps, us, hu, -, hlow, hl, hsrc, hquiet, hidle⟩ := entry_exact
    (s := holding s (entryOf s .usage tag claimed p .owner)) (usageOf b small medium large spit purges degrees) hd hacc rfl
  generalize State.examine (State.accountEntry (holding s (entryOf s .usage tag claimed p .owner)) b
    (usageOf b small medium large spit purges degrees)) b = u at *
  rw [hacc] at hlink
  have hacct : t.account b = u.account b := by rw [ht]; rfl
  have hallow : t.allowance b = u.allowance b := by rw [ht]; rfl
  have hreply : t.accountedReply b (quantaOf acc) = u.accountedReply b (quantaOf acc) := by rw [ht]; rfl
  rw [← hacct] at hlow hsrc hidle
  rw [← hallow] at hsrc
  rw [← hreply] at hlink
  refine ⟨t, x, v, l, n, q, ps, us, hexec, ?_, hlow, fun hno => ?_, hsrc, hquiet, fun hm => hidle ?_⟩
  · rw [ht, hu]; rfl
  · have hno' : noFlush (holding s (entryOf s .usage tag claimed p .owner)) b := fun e he => by
      rcases List.mem_append.1 he with he | he
      · exact hno e he
      · rw [List.mem_singleton.1 he]; exact ⟨(nomatch ·), fun _ => (nomatch ·)⟩
    obtain ⟨h1, h2⟩ := hl hno'
    exact hlink (by rw [hu]; exact h1) (by rw [hu]; exact h2)
  · exact ⟨hm.commitState, hm.posted, hm.current, hm.grant, hm.orders, hm.rechallenge⟩

end Sys2Proof.Machine
end

section
/-! PROOF. USAGE: O43. -/

namespace Sys2Proof.Machine

open Sys2Proof.Safety

variable {s : State}

theorem accountedReply_eq {t : State} {b : Bay} (hlive : t.level b = (t.account b).level) (q : Nat) :
    (0x01#8 :: (t.accountedReply b q).bytes) = [0x01#8, 0x00#8] ++ beBytes 2 q ++
            beBytes 2 (t.account b).committed ++ beBytes 2 (t.account b).pending ++ beBytes 2 (t.allowance b) ++
            beBytes 2 (t.account b).level ++ beBytes 2 (t.account b).overdraw := by
  rw [← hlive]
  simp only [State.accountedReply, EntryReply.bytes, List.append_assoc]
  rfl

theorem commitDue_iff {x : Settings} {r : BayRec} {a : Account} (hl : a.live = true) (hm : a.metering = .metered)
    (hd : r.drawable = true) : commitDue x r { a with commitState := .idle } = true ↔
      a.mode ≠ .frozen ∧ 0 < a.pending ∧ (a.mode = .through ∨ x.batch ≤ a.pending ∨ a.drain.any = true) := by
  unfold commitDue
  simp [hl, hm, hd, and_assoc, or_assoc]

/-- Quanta laid on a METERED account (R74, R75). -/
theorem leftBy_metered {a : Account} (acc : Nat) (x : Account.LeftBy) (h : a.metering = .metered) :
    (a.leftBy acc x).pending = a.pending + min (acc / 100000000000000) (a.capacity - a.committed - a.pending) ∧
      (a.leftBy acc x).overdraw =
        min (a.overdraw + (acc / 100000000000000 - (a.capacity - a.committed - a.pending))) 65535 ∧
      (a.leftBy acc x).unmeteredCount = a.unmeteredCount := by
  unfold Account.leftBy
  rw [accounted_metered acc h]
  refine ⟨rfl, ?_, rfl⟩
  have : acc / 100000000000000 - min (acc / 100000000000000) a.remaining =
      acc / 100000000000000 - (a.capacity - a.committed - a.pending) := by
    unfold Account.remaining; omega
  exact congrArg (fun z => min (a.overdraw + z) 65535) this

theorem leftBy_unmetered {a : Account} (acc : Nat) (x : Account.LeftBy) (h : a.metering = .unmetered) :
    (a.leftBy acc x).pending = a.pending ∧ (a.leftBy acc x).overdraw = a.overdraw ∧
      (a.leftBy acc x).unmeteredCount = min (a.unmeteredCount + acc / 100000000000000) 65535 := by
  unfold Account.leftBy
  rw [accounted_unmetered acc h]
  exact ⟨rfl, rfl, rfl⟩

theorem leftBy_fields (a : Account) (acc : Nat) (x : Account.LeftBy) :
    (a.leftBy acc x).live = a.live ∧ (a.leftBy acc x).metering = a.metering ∧ (a.leftBy acc x).capacity = a.capacity ∧
      (a.leftBy acc x).calibration = a.calibration ∧ (a.leftBy acc x).failures = a.failures ∧
      (a.leftBy acc x).index = a.index := by
  obtain ⟨p, o, n, h⟩ := accounted_kept a acc
  unfold Account.leftBy
  rw [h]
  exact ⟨rfl, rfl, rfl, rfl, rfl, rfl⟩

/-- With no band, HOLD and write-protect the effective mode is the default mode (R89). -/
theorem effectiveMode_accounted {x : Settings} {a : Account} (acc : Nat) (hb : a.bands = []) (hx : x.bands = [])
    (hh : x.hold = false) (hw : a.writeProtect = false) : effectiveMode x (a.accounted acc) = x.defaultMode := by
  obtain ⟨p, o, n, h⟩ := accounted_kept a acc
  unfold effectiveMode candidateModes
  rw [h]
  dsimp only
  rw [hb, hx, hh, hw]
  rfl

/-- Two accounted entries of one bay, the first of which brings a commit due (R76, R93, R94). -/
theorem entries_exact {b : Bay} (e e' : UsageEntry) {acc acc' first : Nat} (hd : (s.bay b).drawable = true)
    (hacc : (s.account b).accumulate e = acc) (hlive : (s.account b).live = true) (hmet : (s.account b).metering = .metered)
    (hstart : mayStart s b) (hb : (s.account b).bands = []) (hx : s.settings.bands = []) (hh : s.settings.hold = false)
    (hw : (s.account b).writeProtect = false) (hdef : s.settings.defaultMode ≠ .frozen) (hmode : (s.account b).mode ≠ .frozen)
    (hfirst : first = (s.account b).pending +
      min (acc / 100000000000000) ((s.account b).capacity - (s.account b).committed - (s.account b).pending))
    (hpos : 0 < first) (hbatch : s.settings.batch ≤ first)
    (hacc' : ∀ a : Account, a.residue = acc % 100000000000000 → a.calibration = (s.account b).calibration → a.accumulate e' = acc')
    {u : State} (hu : u = ((s.usageEntry b e).1.usageEntry b e').1) :
    (u.account b).inFlight = first ∧
      (u.account b).target = (s.account b).committed + first ∧ (u.account b).commitState = .advance ∧
      (u.account b).pending = first +
        min (acc' / 100000000000000) ((s.account b).capacity - (s.account b).committed - first) ∧
      (u.account b).residue = acc' % 100000000000000 ∧ (u.account b).committed = (s.account b).committed ∧
      (u.port b).posted = some {
        op := .advance (s.account b).index ((s.account b).committed + first), attempt := (s.account b).failures + 1 } := by
  have h1 : (s.usageEntry b e).1 = (s.accountEntry b e).examine b := by
    unfold State.usageEntry; rw [if_pos hd]
  rw [h1] at hu
  obtain ⟨x, v, l, q, ps, us, hv, hm, -, -, -, -, hidle⟩ := entry_exact e hd hacc rfl
  generalize (s.accountEntry b e).examine b = w at *
  obtain ⟨-, hi⟩ := hidle hstart
  have hwa : w.account b = (s.account b).leftBy acc x := by rw [hv]; exact upd_get_same _ _ _
  obtain ⟨k1, k2, -, -, -, -⟩ := leftBy_kept (s.account b) acc x
  obtain ⟨f1, f2, f3, f4, f5, f6⟩ := leftBy_fields (s.account b) acc x
  obtain ⟨p1, -, -⟩ := leftBy_metered acc x hmet
  rw [← hfirst] at p1
  have hdue : commitDue s.settings (s.bay b) { w.account b with commitState := .idle } = true := by
    rw [hwa, commitDue_iff (f1.trans hlive) (f2.trans hmet) hd, p1]
    refine ⟨?_, hpos, .inr (.inl hbatch)⟩
    change x.mode ≠ .frozen
    rcases hm with hm | hm
    · rw [hm]; exact hmode
    · rw [hm, effectiveMode_accounted acc hb hx hh hw]; exact hdef
  obtain ⟨i1, i2, i3, i4⟩ := hi.1 hdue
  rw [hwa, p1] at i1 i2 i4
  rw [k2] at i2 i4
  have hwd : (w.bay b).drawable = true := by rw [hv]; exact hd
  have hport : (w.port b).posted = some {
        op := .advance (s.account b).index ((s.account b).committed + first), attempt := (s.account b).failures + 1 } := by
    rw [hv, i4]
    exact congrArg Port.posted (Vector.getElem_set_self _)
  have h2 : (w.usageEntry b e').1 = (w.accountEntry b e').examine b := by
    unfold State.usageEntry; rw [if_pos hwd]
  have hwacc : (w.account b).accumulate e' = acc' := by
    rw [hwa]; exact hacc' _ k1 f4
  obtain ⟨x', v', l', q', ps', us', hv', -, -, -, -, hquiet, -⟩ := entry_exact e' hwd hwacc (hu.trans h2)
  obtain ⟨j1, j2, j3, j4, -⟩ := hquiet (.inr (.inr (.inl (by rw [hport]; rfl))))
  have hua : u.account b = (w.account b).leftBy acc' x' := by rw [hv']; exact upd_get_same _ _ _
  obtain ⟨r1, r2, -, -, -, -⟩ := leftBy_kept (w.account b) acc' x'
  obtain ⟨t1, -, -⟩ := leftBy_metered (a := w.account b) acc' x' (by rw [hwa]; exact f2.trans hmet)
  refine ⟨?_, ?_, ?_, ?_, ?_, ?_, ?_⟩
  · rw [hua]; exact j1.trans (by rw [hwa]; exact i1)
  · rw [hua]; exact j2.trans (by rw [hwa]; exact i2)
  · rw [hua]; exact j3.trans (by rw [hwa]; exact i3)
  · rw [hua, t1, hwa, p1, k2, f3]
  · rw [hua, r1]
  · rw [hua, r2, hwa, k2]
  · rw [hv', j4]; exact hport

/-- What is laid stays within the room (R74). -/
theorem laid_le {committed pending capacity n after : Nat} (h : after = pending + min n (capacity - committed - pending))
    (hle : committed + pending ≤ capacity) : committed + after ≤ capacity := by omega

theorem accumulate_sum {a : Account} {c : CalibrationCopy} (h : a.calibration = some c) (b : Bay)
    (small medium large spit : BitVec 32) (purges degrees : Byte) :
    a.accumulate (usageOf b small medium large spit purges degrees) = a.residue +
      (small.toNat * c.vS + medium.toNat * c.vM + large.toNat * c.vL + spit.toNat * c.vM) *
        temperatureFactor c.k degrees.toInt + purges.toNat * c.vp * 1000000000 := by
  unfold Account.accumulate
  rw [h]
  rfl

/-- Settles O43: an entry lays its quanta and may start a commit; of two entries the second finds that commit's ADVANCE posted. -/
theorem usageEntryIsAccounted : Obligations.UsageEntryIsAccounted := by
  refine ⟨fun s tag claimed b small medium large spit purges degrees p hp h => ⟨fun hd c hc => ?_, fun hd => ?_⟩,
    fun s tag claimed b small medium large spit purges degrees small' medium' large' spit' purges' degrees' p c hp h hd hlive hmet hc
      hcs hposted hcur hgrant hord hre hb hx hh hw hdef hmode _ => ?_⟩
  · intro acc q room
    have hacc : (s.account b).accumulate (usageOf b small medium large spit purges degrees) = acc :=
      accumulate_sum hc b small medium large spit purges degrees
    obtain ⟨t, x, v, l, n, qu, ps, us, hexec, ht, hlow, hlink, hsrc, hquiet, hidle⟩ := usage_one_accounted hp h hd hacc
    have hta : t.account b = (s.account b).leftBy acc x := by rw [ht]; exact upd_get_same _ _ _
    obtain ⟨k1, k2, -, -, -, -⟩ := leftBy_kept (s.account b) acc x
    obtain ⟨f1, f2, f3, f4, f5, f6⟩ := leftBy_fields (s.account b) acc x
    refine ⟨t, hexec, by rw [hta, k1], by rw [hta, k2], fun hm => ?_, fun hm => ?_, fun hno => ?_, ⟨?_, fun k => ?_⟩, fun d hne => ?_,
      by rw [ht], by rw [ht], by rw [ht], by rw [ht], by rw [ht], fun hq => ?_, fun hlive hm hcs hposted hcur hgrant hord hre => ?_⟩
    · obtain ⟨p1, p2, p3⟩ := leftBy_metered acc x hm
      rw [hta, k2]
      refine ⟨fun hle => ?_, p1, p2, p3⟩
      exact laid_le p1 hle
    · rw [hta]; exact leftBy_unmetered acc x hm
    · rw [hlink hno, accountedReply_eq rfl]; rfl
    · have : (t.account b).lowNotified = x.low := by rw [hta]; rfl
      rw [this, Bool.eq_iff_iff, hlow, Bool.or_eq_true, decide_eq_true_eq]
      rfl
    · have hk : t.source k = v[k.index] := by rw [ht]; rfl
      rw [hk]
      split
      · rename_i hc; exact (hsrc k).1 hc
      · rename_i hc; exact (hsrc k).2 hc
    · rw [ht]; exact upd_get_ne _ _ hne
    · obtain ⟨j1, j2, j3, j4, j5⟩ := hquiet hq
      rw [hta]
      exact ⟨j1, j2, j3, by rw [ht]; exact j4, by rw [ht]; exact j5⟩
    · obtain ⟨j0, j1, j2⟩ := hidle ⟨hcs, hposted, hcur, hgrant, hord, hre⟩
      have hdue := commitDue_iff (x := s.settings) (r := s.bay b) (a := t.account b) (by rw [hta]; exact f1.trans hlive)
        (by rw [hta]; exact f2.trans hm) hd
      refine ⟨by rw [ht]; exact j0, fun hdue' => ?_, fun hdue' => ?_⟩
      · obtain ⟨i1, i2, i3, i4⟩ := j1 (hdue.2 hdue')
        refine ⟨?_, ?_, ?_, ?_⟩
        · rw [← i1, hta]; rfl
        · rw [← i2, hta]; rfl
        · rw [← i3, hta]; rfl
        · rw [← i4, ht]
      · obtain ⟨i1, i2, i3, i4⟩ := j2 (by
          rw [← Bool.not_eq_true]; exact fun k => hdue' (hdue.1 k))
        refine ⟨?_, ?_, ?_, ?_⟩
        · rw [← i1, hta]; rfl
        · rw [← i2, hta]; rfl
        · rw [← i3, hta]; rfl
        · rw [← i4, ht]
  · exact exec_usage_stray hp h hd
  · intro acc acc' first hpos hbatch
    have key := entries_exact (s := holding s (entryOf s .usage tag claimed p .owner)) (b := b)
      (usageOf b small medium large spit purges degrees) (usageOf b small' medium' large' spit' purges' degrees')
      (acc := acc) (acc' := acc') (first := first) hd (accumulate_usageOf hc b _ _ _ _ _ _) hlive hmet
      ⟨hcs, hposted, hcur, hgrant, hord, hre⟩ hb hx hh hw hdef hmode rfl hpos hbatch
      (fun a hr hca => by
        rw [accumulate_usageOf (hca.trans hc), hr]) rfl
    have hserve := serveUsage_two (s := holding s (entryOf s .usage tag claimed p .owner))
      (e := entryOf s .usage tag claimed p .owner) (b := b) (small := small) (medium := medium) (large := large) (spit := spit)
      (purges := purges) (degrees := degrees) (small' := small') (medium' := medium') (large' := large') (spit' := spit')
      (purges' := purges') (degrees' := degrees') hp
    obtain ⟨t, hexec, ⟨l, n, ht⟩, -⟩ := exec_event h hserve
    generalize (((holding s (entryOf s .usage tag claimed p .owner)).usageEntry b
      (usageOf b small medium large spit purges degrees)).1.usageEntry b
      (usageOf b small' medium' large' spit' purges' degrees')).1 = u at *
    obtain ⟨l', q', hf⟩ := finish_only u (entryOf s .usage tag claimed p .owner) .ok (byteOf 2 ::
        [((holding s (entryOf s .usage tag claimed p .owner)).usageEntry b
            (usageOf b small medium large spit purges degrees)).2,
          (((holding s (entryOf s .usage tag claimed p .owner)).usageEntry b
            (usageOf b small medium large spit purges degrees)).1.usageEntry b
            (usageOf b small' medium' large' spit' purges' degrees')).2].flatMap EntryReply.bytes)
    refine ⟨t, hexec, ?_⟩
    rw [ht, hf]
    exact key

end Sys2Proof.Machine
end

section
/-! PROOF. The bay's choice and the grant (R22, R28, R53 to R55). -/

namespace Sys2Proof.Machine

open Sys2Proof.Safety

variable {s : State}

/-! ### The grant (R28) -/

theorem free_false {u : BusState} (h : u.current.isSome = true ∨ u.restTimer.isSome = true) : u.free = false := by
  unfold BusState.free
  cases hc : u.current <;> cases hr : u.restTimer <;> simp_all

/-- Settles O19: the grant by its branches. -/
theorem grantMakesTheTransaction : Obligations.GrantMakesTheTransaction := by
  refine fun s n => ⟨fun b q hcur hrest hexp hch hq => congrArg Host.Outcome.next ?_, fun h => congrArg Host.Outcome.next ?_⟩
  · have hmay : s.mayGrant n = true := by simp [State.mayGrant, BusState.free, hcur, hrest, hexp]
    unfold State.grant
    rw [if_pos hmay, hch]; dsimp only
    rw [hq]; dsimp only
    have hadv : q.op.isAdvance = decide (q.op.kind = .advance) := by cases q.op <;> rfl
    unfold State.grantTo
    rw [hadv]
    simp only [decide_eq_true_eq]
    rfl
  · refine if_neg (mayGrant_false ?_)
    rcases h with h | h | h
    · exact .inl (free_false (.inl h))
    · exact .inl (free_false (.inr h))
    · exact .inr h

/-- After a grant, or where none was due, none is due. -/
theorem noGrantDue_grant (s : State) (b : Bay) : noGrantDue (s.grant (busOf b)) b := by
  by_cases hm : s.mayGrant (busOf b) = true
  · unfold State.grant
    rw [if_pos hm]
    split
    · rename_i c hc
      split
      · refine .inl ?_
        simp [State.grantTo, BusState.free]
      · rename_i hq
        obtain ⟨-, q, hq', -⟩ := (arbiterChoosesByClassThenTurn s (busOf b)).2 c hc
        rw [hq] at hq'; exact nomatch hq'
    · rename_i hc
      exact .inr (.inr fun c _ hcb => State.bestClass_eq_none_iff.1 (State.choice_eq_none_iff.1 hc) c hcb)
  · have hg : s.grant (busOf b) = s := if_neg hm
    rw [hg]
    unfold State.mayGrant at hm
    rw [Bool.and_eq_true, not_and_or] at hm
    rcases hm with hm | hm
    · exact .inl (by simpa using hm)
    · exact .inr (.inl (by simpa using hm))

/-- A bay with nothing posted is granted nothing. -/
theorem grant_other {b : Bay} (n : Bus) (hp : (s.port b).posted = none) :
    ((s.grant n).port b).posted = none ∧
      ((∀ t, (s.bus n).current = some t → t.bay ≠ b) → ∀ t, ((s.grant n).bus n).current = some t → t.bay ≠ b) := by
  unfold State.grant
  split
  · split
    · rename_i c _
      split
      · rename_i q hq
        have hne : b ≠ c := fun e => by rw [← e, hp] at hq; exact nomatch hq
        refine ⟨?_, fun _ t ht => ?_⟩
        · unfold State.grantTo
          simp only [State.port_modBus]
          rw [State.port_modPort, if_neg hne]; exact hp
        · unfold State.grantTo at ht
          simp only [State.bus_modBus_same, Option.some.injEq] at ht
          rw [← ht]; exact fun e => hne e.symm
      · exact ⟨hp, fun h => h⟩
    · exact ⟨hp, fun h => h⟩
  · exact ⟨hp, fun h => h⟩

/-! ### The choice (R22) -/

theorem inProgress_false {b : Bay} (h : ∀ t, (s.bus (busOf b)).current = some t → t.bay ≠ b) : s.inProgress b = false := by
  rw [← Bool.not_eq_true, inProgress_iff]
  rintro ⟨r, h1, h2⟩
  exact h r h1 h2

theorem chooseNext_due {b : Bay} {d : Due} (hp : (s.port b).posted = none)
    (hc : ∀ t, (s.bus (busOf b)).current = some t → t.bay ≠ b) (hd : s.nextDue b = some d) :
    s.chooseNext b = (s.grant (busOf b)).post b d := by
  unfold State.chooseNext
  rw [if_neg (by simp [hp, inProgress_false hc]), hd]

theorem nextDue_grant (s : State) (n : Bus) (b : Bay) : (s.grant n).nextDue b = s.nextDue b := by
  obtain ⟨v, u, h, -⟩ := s.grant_only n
  rw [h]; rfl

/-- An event seen from two states with one line. -/
theorem together_congr {s g : State} {f : State → State} (hl : g.link = s.link) (hf : f g = f s) : g.together f = s.together f := by
  unfold State.together; rw [hl, hf]

/-- What a bay posts while no grant is due, if the posting completes no request. -/
theorem exec_post {b : Bay} {d : Due} (hp : (s.port b).posted = none)
    (hc : ∀ t, (s.bus (busOf b)).current = some t → t.bay ≠ b) (hg : noGrantDue s b) (hd : s.nextDue b = some d)
    (hl : (s.post b d).link = s.link) : exec (.postNextOperation b) s = .next (s.post b d) := by
  have h : s.chooseNext b = s.post b d := by rw [chooseNext_due hp hc hd, grant_none hg hp]
  refine congrArg Host.Outcome.next ?_
  exact (State.together_of_link (s := s) (f := fun s => s.chooseNext b) (by rw [h]; exact hl)).trans h

/-! ### What is due -/

theorem checkReadDue_false {b : Bay} (h : (s.account b).commitState ≠ .check) : s.checkReadDue b = false := by
  simp [State.checkReadDue, State.awaitsCheck, h]

theorem commitDue_not_drawable {b : Bay} (h : (s.bay b).drawable = false) : s.commitDue b = false := by
  simp [State.commitDue, commitDue, h]

theorem nextDue_checkRead {b : Bay} (hd : (s.bay b).drawable = true) (hl : (s.account b).live = true)
    (hc : (s.account b).commitState = .check) : s.nextDue b = some .checkRead := by
  unfold State.nextDue
  rw [if_pos (by simp [State.checkReadDue, State.awaitsCheck, hd, hl, hc])]

theorem nextDue_save {b : Bay} (hcs : (s.account b).commitState = .idle) (hc : s.commitDue b = true)
    (hs : (s.account b).drain.save = true) : s.nextDue b = some .commit := by
  unfold State.nextDue
  rw [checkReadDue_false (by rw [hcs]; decide), hc, hs]; rfl

theorem nextDue_mark {b : Bay} {o : MarkOrder} {os : List MarkOrder} (ho : s.markOrders b = o :: os)
    (hm : (s.bay b).state.mayMark = true) (hc : (s.account b).commitState ≠ .check) (hs : (s.account b).drain.save = false) :
    s.nextDue b = some (.mark o.mark o.attempts) := by
  unfold State.nextDue State.markDue
  rw [checkReadDue_false hc, hs, hm, ho]; simp

/-- With nothing of the first three kinds due, nor a commit, the bay's step is due (R22, items 5 and 6). -/
theorem nextDue_step {b : Bay} (hc : (s.account b).commitState ≠ .check ∨ (s.bay b).drawable = false)
    (hs : (s.account b).drain.save = false ∨ s.commitDue b = false) (hm : s.markDue b = none)
    (hr : (s.bay b).rechallenge = .running ∨ s.commitDue b = false) : s.nextDue b = s.stepDue b := by
  have h1 : s.checkReadDue b = false := by
    rcases hc with hc | hc
    · exact checkReadDue_false hc
    · simp [State.checkReadDue, hc]
  have h2 : (s.commitDue b && (s.account b).drain.save) = false := by rcases hs with hs | hs <;> simp [hs]
  have h3 : (s.commitDue b && (s.bay b).rechallenge != .running) = false := by rcases hr with hr | hr <;> simp [hr]
  unfold State.nextDue
  rw [h1, h2, hm]
  dsimp only
  rw [h3]; rfl

/-- A challenge of the bay is at a step of its own, with nothing earlier due (R22). -/
def challengeTurn (s : State) (b : Bay) (k : ChallengeKind) : Prop :=
  ((s.bay b).state = .challenging ∧ k = .admission) ∨
    ((s.bay b).drawable = true ∧ (s.bay b).rechallenge = .running ∧ k = .rechallenge ∧ (s.account b).commitState ≠ .check ∧
      (s.account b).drain.save = false ∧ s.markOrders b = [])

theorem nextDue_challenge {b : Bay} {k : ChallengeKind} (h : challengeTurn s b k) : s.nextDue b = s.challengeStep b k := by
  rcases h with ⟨hs, rfl⟩ | ⟨hd, hr, rfl, hc, hsave, ho⟩
  · have hd : (s.bay b).drawable = false := by simp [BayRec.drawable, hs]
    rw [nextDue_step (.inr hd) (.inr (commitDue_not_drawable hd)) (by simp [State.markDue, hs, BayState.mayMark])
      (.inr (commitDue_not_drawable hd))]
    unfold State.stepDue
    rw [hs]
  · rw [nextDue_step (.inl hc) (.inl hsave) (by simp [State.markDue, ho]) (.inl hr)]
    unfold State.stepDue
    rcases (by simpa [BayRec.drawable] using hd : (s.bay b).state = .admitted ∨ (s.bay b).state = .releasing) with h | h
    · rw [h]; dsimp only; rw [if_pos hr]
    · rw [h]; dsimp only; rw [if_pos hr]

/-! ### The opening of an exchange (R53 to R55) -/

/-- An exchange opened: the context, the job at the queue's tail, the posted NONCE-SEND; the engine has not yet run. -/
def openedExchange (s : State) (b : Bay) (kind : ChallengeKind) (j : Job) : State :=
  { s with
    free := s.free + 1
    digest := { s.digest with
      drawNumber := s.digest.drawNumber + 1, queue := s.digest.queue ++ [j]
      contexts := s.digest.contexts.set b { Context.closed with
        kind := some kind, slot := some j.slot, nonce := s.nextNonce, job := .waiting } }
    ports := s.ports.set b { s.port b with posted := some {
      op := .nonceSend kind s.nextNonce, attempt := (s.bay b).commFailures + 1 } } }

theorem openExchange_eq {b : Bay} {kind : ChallengeKind} {j : Job} (hj : s.jobFor b s.nextNonce = some j) :
    s.openExchange b kind = (openedExchange s b kind j).runEngine := by
  unfold State.openExchange; dsimp only
  rw [hj]; rfl

/-- The job queued for a bay, with its copies of the pages (R55). -/
def bayJob (b : Bay) (i : IdentityPage) (c : CalibrationPage) (k : SlotNo) (nonce : BitVec 128) : Job :=
  { bay := b, slot := k, nonce := nonce, serial := i.serial, identityPage := i.bytes, calibrationPage := c.bytes }

theorem jobFor_some {b : Bay} {i : IdentityPage} {c : CalibrationPage} {k : SlotNo} (hi : (s.bay b).identityPage = some i)
    (hc : (s.bay b).calibrationPage = some c) (hk : (s.bay b).slot = some k) (nonce : BitVec 128) :
    s.jobFor b nonce = some (bayJob b i c k nonce) := by
  unfold State.jobFor
  rw [hi, hc, hk]; rfl

/-- While the engine computes, it takes no job (R55). -/
theorem runEngine_busy (h : s.digest.computing.isSome = true) : s.runEngine = s := by
  unfold State.runEngine State.pump
  rw [if_pos h]

theorem runEngine_empty (h : s.digest.queue = []) : s.runEngine = s := by
  unfold State.runEngine State.pump
  rw [h]; dsimp only; split <;> rfl

/-- An idle engine takes a job whose slot is ENABLED (R55). -/
theorem runEngine_takes {j : Job} {rest : List Job} {secret : BitVec 256} (hc : s.digest.computing = none)
    (hq : s.digest.queue = j :: rest) (he : (s.slot j.slot).state = .enabled) (hs : (s.slot j.slot).secret = some secret) :
    s.runEngine = { s with digest := { s.digest with
      queue := rest
      contexts := upd s.digest.contexts j.bay fun c => { c with job := .computing }
      computing := some {
        bay := j.bay, answer := Config.answer secret j.nonce j.serial j.identityPage j.calibrationPage, discarded := false } } } := by
  unfold State.runEngine State.pump
  rw [if_neg (by simp [hc]), hq]; dsimp only
  have h1 : ((s.modDigest fun d => { d with queue := rest }).slot j.slot) = s.slot j.slot := rfl
  rw [h1, he, hs]
  rfl

/-- An idle engine ends the one job whose slot is not ENABLED, the token's answer for it being absent (R55). -/
theorem runEngine_withholds {j : Job} (hc : s.digest.computing = none) (hq : s.digest.queue = [j])
    (he : (s.slot j.slot).state ≠ .enabled) (ht : (s.context j.bay).tokenAnswer = none) :
    s.runEngine = { s with digest := { s.digest with
      queue := []
      contexts := upd s.digest.contexts j.bay fun c => { c with job := .done, expected := .withheld } } } := by
  have h2 : (State.modContext (s.modDigest fun d => { d with queue := [] }) j.bay fun c =>
      { c with job := .done, expected := .withheld }).judgeIfComplete j.bay =
      { s with digest := { s.digest with
        queue := []
        contexts := upd s.digest.contexts j.bay fun c => { c with job := .done, expected := .withheld } } } := by
    unfold State.judgeIfComplete
    rw [if_neg]
    · rfl
    · rw [State.context_modContext_same]
      change ¬((s.context j.bay).tokenAnswer.isSome && _) = true
      rw [ht]; exact Bool.false_ne_true
  unfold State.runEngine
  rw [hq]
  unfold State.pump
  rw [if_neg (by simp [hc]), hq]; dsimp only
  split
  · rename_i h _; exact absurd h he
  · rw [h2]
    unfold State.pump
    exact if_neg (by rw [hc]; exact Bool.false_ne_true)

end Sys2Proof.Machine
end

section
/-! PROOF. O16 and O17: what a bay posts. -/

namespace Sys2Proof.Machine

open Sys2Proof.Safety

variable {s : State}

theorem upd_eq_set {α : Type} {n : Nat} (v : Vector α n) (i : Fin n) (f : α → α) : upd v i f = v.set i (f v[i]) := rfl

theorem nextDue_identifying {b : Bay} (h : (s.bay b).state = .identifying) : s.nextDue b = some (.readPage (s.bay b).nextPage) := by
  have hd : (s.bay b).drawable = false := by simp [BayRec.drawable, h]
  rw [nextDue_step (.inr hd) (.inr (commitDue_not_drawable hd)) (by simp [State.markDue, h, BayState.mayMark])
    (.inr (commitDue_not_drawable hd))]
  unfold State.stepDue
  rw [h]

theorem nextPage_eq (r : BayRec) : r.nextPage = if r.identityPage = none then .identity
    else if r.rejectReason = .none ∧ r.calibrationPage = none then .calibration else .usage := by
  unfold BayRec.nextPage
  simp [Option.isNone_iff_eq_none]

theorem challengeStep_fetch {b : Bay} {k : ChallengeKind} (hk : (s.context b).kind.isSome = true) (hf : (s.bay b).fetchDue = true) :
    s.challengeStep b k = some (.fetch k) := by
  unfold State.challengeStep
  rw [if_neg (by simpa using Option.isSome_iff_ne_none.1 hk), if_pos hf]

theorem challengeStep_open {b : Bay} {k : ChallengeKind} (hk : (s.context b).kind = none) :
    s.challengeStep b k = some (.openExchange k) := by
  unfold State.challengeStep
  rw [if_pos (by simp [hk])]

/-- A commit may start and is due (R93). -/
theorem commitDue_of {b : Bay} (h : (s.bay b).drawable = true ∧ (s.account b).live = true ∧ (s.account b).metering = .metered ∧
      (s.account b).mode ≠ .frozen ∧ (s.account b).commitState = .idle ∧ 0 < (s.account b).pending)
    (hd : (s.account b).mode = .through ∨ s.settings.batch ≤ (s.account b).pending ∨ (s.account b).drain.any = true) :
    s.commitDue b = true := by
  obtain ⟨h1, h2, h3, h4, h5, h6⟩ := h
  have : ({ s.account b with commitState := .idle } : Account) = s.account b := by rw [← h5]
  unfold State.commitDue
  rw [← this]
  exact (commitDue_iff h2 h3 h1).2 ⟨h4, h6, hd⟩

/-- The NONCE-SEND posted for an exchange that opens while the engine computes. -/
theorem openExchange_busy {b : Bay} {kind : ChallengeKind} {j : Job} (hj : s.jobFor b s.nextNonce = some j)
    (h : s.digest.computing.isSome = true) : s.openExchange b kind = openedExchange s b kind j := by
  rw [openExchange_eq hj, runEngine_busy (by exact h)]

/-- Settles O16: the rule's order is the order of `nextDue`'s branches. -/
theorem bayPostsTheFirstOperationDue : Obligations.BayPostsTheFirstOperationDue := by
  refine ⟨fun s g b hp hc hd hg => ?_, fun s b hp hc hg => ?_⟩
  · obtain rfl := Host.Outcome.next.inj hg
    obtain ⟨d, hd⟩ := Option.isSome_iff_exists.1 hd
    obtain ⟨hp', hc'⟩ := grant_other (busOf b) hp
    have hng := noGrantDue_grant s b
    refine ⟨congrArg Host.Outcome.next ?_, hng⟩
    refine (together_congr (f := fun s => s.chooseNext b) ?_ ?_).symm
    · obtain ⟨v, u, h, -⟩ := s.grant_only (busOf b); rw [h]
    · rw [chooseNext_due hp hc hd, chooseNext_due hp' (hc' hc) ((nextDue_grant _ _ _).trans hd), grant_none hng hp']
  · intro committing mayCommit challenges
    have commits : s.nextDue b = some .commit → exec (.postNextOperation b) s = .next committing := fun h =>
      exec_post hp hc hg h rfl
    refine ⟨fun h1 h2 h3 => exec_post hp hc hg (nextDue_checkRead h1 h2 h3) rfl, fun h1 h2 => ?_, fun o os h1 h2 h3 h4 => ?_,
      fun h1 h2 h3 h4 => ?_, fun h1 => ?_, fun k hk => ⟨fun h1 h2 => ?_, fun h1 h2 h3 h4 h5 => ?_⟩⟩
    · exact commits (nextDue_save h1.2.2.2.2.1 (commitDue_of h1 (.inr (.inr (by simp [Drain.any, h2])))) h2)
    · exact exec_post hp hc hg (nextDue_mark h1 h2 h3 h4) rfl
    · exact commits ((nextDue_commit h1.2.2.2.2.1 h2 h3).2 (commitDue_of h1 h4))
    · rw [← nextPage_eq]
      exact exec_post hp hc hg (nextDue_identifying h1) rfl
    · exact exec_post hp hc hg ((nextDue_challenge hk).trans (challengeStep_fetch h1 h2)) rfl
    · obtain ⟨i, hi⟩ := Option.isSome_iff_exists.1 h3
      obtain ⟨c, hc'⟩ := Option.isSome_iff_exists.1 h4
      obtain ⟨j, hj⟩ := Option.isSome_iff_exists.1 h5
      have hopen := openExchange_busy (kind := k) (jobFor_some hi hc' hj s.nextNonce) h2
      refine ⟨_, s.nextNonce, (exec_post hp hc hg ((nextDue_challenge hk).trans (challengeStep_open h1)) ?_).trans
        (congrArg Host.Outcome.next hopen), ?_⟩
      · exact (congrArg State.link hopen).trans rfl
      · exact congrArg Port.posted (upd_get_same s.ports b fun _ => { s.port b with posted := some {
          op := .nonceSend k s.nextNonce, attempt := (s.bay b).commFailures + 1 } })

theorem nextNonce_eq (h : s.digest.drawNumber < 2 ^ 48) :
    s.nextNonce = BitVec.ofNat 48 s.digest.drawNumber ++ Config.random s.free := by
  unfold State.nextNonce nonceOf drawBits
  rw [if_pos h]

/-- An exchange opened, the engine's queue and work and the context's job and expected answer as given. -/
def openedAs (s : State) (b : Bay) (kind : ChallengeKind) (k : SlotNo) (queue : List Job) (computing : Option Computing)
    (job : JobState) (expected : Expected) : State := withPort
  { s with
    free := s.free + 1
    digest := { s.digest with
      drawNumber := s.digest.drawNumber + 1, queue := queue, computing := computing
      contexts := s.digest.contexts.set b { Context.closed with
        kind := some kind, slot := some k, job := job, expected := expected, nonce := s.nextNonce } } }
  b { s.port b with posted := some { op := .nonceSend kind s.nextNonce, attempt := (s.bay b).commFailures + 1 } }

theorem openedExchange_eq (s : State) (b : Bay) (kind : ChallengeKind) (j : Job) :
    openedExchange s b kind j = openedAs s b kind j.slot (s.digest.queue ++ [j]) s.digest.computing .waiting .absent := rfl

theorem openedAs_context (s : State) (b : Bay) (kind : ChallengeKind) (k : SlotNo) (queue : List Job)
    (computing : Option Computing) (job : JobState) (expected : Expected) :
    (openedAs s b kind k queue computing job expected).context b = { Context.closed with
        kind := some kind, slot := some k, job := job, expected := expected, nonce := s.nextNonce } :=
  upd_get_same s.digest.contexts b fun _ => _

/-- The engine's next state of an opened exchange: its own queue and work, and the context's job and expected answer. -/
theorem openedAs_set (s : State) (b : Bay) (kind : ChallengeKind) (k : SlotNo) {queue queue' : List Job}
    {computing computing' : Option Computing} {job job' : JobState} {expected expected' : Expected} (f : Context → Context)
    (hf : ∀ c : Context, c.job = job → c.expected = expected → f c = { c with job := job', expected := expected' }) :
    ({ openedAs s b kind k queue computing job expected with
      digest := { (openedAs s b kind k queue computing job expected).digest with
        queue := queue', computing := computing'
        contexts := upd (openedAs s b kind k queue computing job expected).digest.contexts b f } } : State) =
      openedAs s b kind k queue' computing' job' expected' := by
  have h : upd (openedAs s b kind k queue computing job expected).digest.contexts b f =
      (openedAs s b kind k queue' computing' job' expected').digest.contexts := by
    have h1 := upd_upd s.digest.contexts b (fun _ => { Context.closed with
        kind := some kind, slot := some k, job := job, expected := expected, nonce := s.nextNonce }) f
    refine h1.trans ?_
    rw [hf _ rfl rfl]; rfl
  rw [h]; rfl

/-- An idle engine with an empty queue takes the job of the exchange that opens (R55). -/
theorem openExchange_takes {b : Bay} {kind : ChallengeKind} {j : Job} {secret : BitVec 256} (hj : s.jobFor b s.nextNonce = some j)
    (hb : j.bay = b) (hc : s.digest.computing = none) (hq : s.digest.queue = []) (he : (s.slot j.slot).state = .enabled)
    (hs : (s.slot j.slot).secret = some secret) : s.openExchange b kind = openedAs s b kind j.slot [] (some {
      bay := b, answer := Config.answer secret j.nonce j.serial j.identityPage j.calibrationPage, discarded := false })
      .computing .absent := by
  rw [openExchange_eq hj, openedExchange_eq, hq, hc]
  rw [runEngine_takes (s := openedAs s b kind j.slot ([] ++ [j]) none .waiting .absent) rfl rfl he hs, hb]
  exact openedAs_set s b kind j.slot _ fun c _ he => by rw [← he]

/-- It withholds the answer of the exchange that opens if its slot is not ENABLED (R55). -/
theorem openExchange_withholds {b : Bay} {kind : ChallengeKind} {j : Job} (hj : s.jobFor b s.nextNonce = some j)
    (hb : j.bay = b) (hc : s.digest.computing = none) (hq : s.digest.queue = []) (he : (s.slot j.slot).state ≠ .enabled) :
    s.openExchange b kind = openedAs s b kind j.slot [] none .done .withheld := by
  rw [openExchange_eq hj, openedExchange_eq, hq, hc]
  rw [runEngine_withholds (s := openedAs s b kind j.slot ([] ++ [j]) none .waiting .absent) rfl rfl he
    (by rw [hb, openedAs_context]; rfl), hb]
  exact openedAs_set s b kind j.slot _ fun c _ _ => rfl

/-- Settles O17: the exchange opens, and the engine runs. -/
theorem challengingBayOpensAnExchange : Obligations.ChallengingBayOpensAnExchange := by
  intro s b kind i c k hp hcur hg hturn hctx hi hcal hk hdraw nonce opened
  have hn : nonce = s.nextNonce := (nextNonce_eq hdraw).symm
  clear_value nonce
  subst hn
  have hj := jobFor_some hi hcal hk s.nextNonce
  have hpost : ∀ t : State, s.openExchange b kind = t → t.link = s.link → exec (.postNextOperation b) s = .next t :=
    fun t ht hl => ht ▸ exec_post hp hcur hg ((nextDue_challenge hturn).trans (challengeStep_open hctx))
      ((congrArg State.link ht).trans hl)
  refine ⟨fun hbusy => ?_, fun hidle hempty => ⟨fun secret he hs => ?_, fun he => ?_⟩⟩
  · exact hpost _ (openExchange_busy hj hbusy) rfl
  · exact hpost _ (openExchange_takes hj rfl hidle hempty he hs) rfl
  · exact hpost _ (openExchange_withholds hj rfl hidle hempty he) rfl

end Sys2Proof.Machine
end

section
/-! PROOF. Token replies and failing transactions (R26, R45, R180). -/

namespace Sys2Proof.Machine

open Sys2Proof.Safety

variable {s : State}

/-! ### Reply frames (R180) -/

theorem splitReply_ok (data : List Byte) : splitReply (tokenFrame 0x00#8 data) = some (.ok, data) := by
  unfold splitReply tokenFrame
  simp only [List.getLast?_concat, List.dropLast_concat]
  rw [if_pos trivial]; rfl

theorem splitReply_other {st : Byte} {q : Status} (h : statusOf st = some q) (hq : q ≠ .ok) (data : List Byte) :
    splitReply (tokenFrame st data) = if data.isEmpty then some (q, []) else none := by
  unfold splitReply tokenFrame
  simp only [List.getLast?_concat, List.dropLast_concat]
  rw [if_pos trivial, h]
  cases q with
  | ok => exact absurd rfl hq
  | refused => rfl
  | already => rfl
  | busy => rfl

theorem splitReply_unknown {st : Byte} (h : statusOf st = none) (data : List Byte) :
    splitReply (tokenFrame st data) = none := by
  unfold splitReply tokenFrame
  simp only [List.getLast?_concat, List.dropLast_concat]
  rw [if_pos trivial, h]

/-- A frame whose check is wrong, or too short to hold one, splits into nothing. -/
theorem splitReply_not_frame {frame : List Byte} (h : ∀ st data, frame ≠ tokenFrame st data) : splitReply frame = none := by
  cases frame with
  | nil => rfl
  | cons st rest =>
    unfold splitReply
    dsimp only
    cases hl : rest.getLast? with
    | none => rfl
    | some check =>
      dsimp only
      rw [if_neg]
      intro hc
      refine h st rest.dropLast ?_
      unfold tokenFrame
      rw [hc, List.dropLast_append_getLast? _ hl]

theorem statusOf_above {st : Byte} (h : 3 < st.toNat) : statusOf st = none := by
  unfold statusOf
  rw [if_neg, if_neg, if_neg, if_neg] <;> · rintro rfl; exact absurd h (by decide)

theorem statusOf_cases (st : Byte) : statusOf st = none ∨ (st = 0x00#8 ∧ statusOf st = some .ok) ∨
    ∃ q, statusOf st = some q ∧ q ≠ .ok := by
  unfold statusOf
  by_cases h0 : st = 0
  · exact .inr (.inl ⟨h0, if_pos h0⟩)
  · rw [if_neg h0]
    by_cases h1 : st = 1
    · exact .inr (.inr ⟨.refused, if_pos h1, by decide⟩)
    · rw [if_neg h1]
      by_cases h2 : st = 2
      · exact .inr (.inr ⟨.already, if_pos h2, by decide⟩)
      · rw [if_neg h2]
        by_cases h3 : st = 3
        · exact .inr (.inr ⟨.busy, if_pos h3, by decide⟩)
        · exact .inl (if_neg h3)

/-! ### The judgment of a reply (R26) -/

variable {α : Type} {fetch : Bool} {mark : Option α} {content : List Byte → Option α} {frame : List Byte} {e : ErrorKind}

theorem judge_ok {data : List Byte} {a : α} (h : content data = some a) :
    judgeReply fetch mark content (tokenFrame 0x00#8 data) = .good a := by
  unfold judgeReply
  rw [splitReply_ok]; dsimp only
  rw [h]

theorem judge_refused : judgeReply fetch mark content (tokenFrame 0x01#8 []) = .bad .refused := rfl

theorem judge_already (a : α) : judgeReply fetch (some a) content (tokenFrame 0x02#8 []) = .good a := rfl

theorem judge_busy : judgeReply fetch mark content (tokenFrame 0x03#8 []) = if fetch then .busy else .bad .noResponse := rfl

/-- A reply frame that the phase cannot take, whatever it awaits (R26). -/
def frameFails (mark : Option α) (content : List Byte → Option α) (frame : List Byte) : Prop :=
  (∀ st data, frame ≠ tokenFrame st data) ∨
    ∃ st data, frame = tokenFrame st data ∧ (3 < st.toNat ∨ (st ≠ 0x00#8 ∧ data ≠ []) ∨ (st = 0x00#8 ∧ content data = none) ∨
      (st = 0x02#8 ∧ mark = none))

theorem judge_frameFails (h : frameFails mark content frame) : judgeReply fetch mark content frame = .bad .frameError := by
  unfold judgeReply
  rcases h with h | ⟨st, data, rfl, h⟩
  · rw [splitReply_not_frame h]
  · rcases h with h | ⟨h, hd⟩ | ⟨rfl, hc⟩ | ⟨rfl, hm⟩
    · rw [splitReply_unknown (statusOf_above h)]
    · rcases statusOf_cases st with hs | ⟨hs, -⟩ | ⟨q, hs, hq⟩
      · rw [splitReply_unknown hs]
      · exact absurd hs h
      · rw [splitReply_other hs hq, if_neg (by simpa using hd)]
    · rw [splitReply_ok]; dsimp only; rw [hc]
    · rw [splitReply_other (q := .already) rfl (by decide)]
      by_cases hd : data.isEmpty = true
      · rw [if_pos hd]; dsimp only; rw [hm]
      · rw [if_neg hd]

/-! ### A transaction that fails (R45) -/

theorem rests_iff (op : BusOp) : op.rests = true ↔ op.kind = .advance ∨ op.kind = .mark := by
  cases op <;> simp [BusOp.rests, BusOp.kind]

theorem failTransaction_eq (s : State) (n : Bus) (t : Transaction) (e : ErrorKind) : s.failTransaction n t e =
    if t.discarded then afterFailure s n t e else (afterFailure s n t e).deliverFailure t := by
  have h : (if t.request.op.kind = .answerFetch then
      State.clearFetchCount ((s.writeFault (s.transactionFault n t e)).endTransaction n t.request.op.rests) t.bay
      else (s.writeFault (s.transactionFault n t e)).endTransaction n t.request.op.rests) = afterFailure s n t e := by
    have hr : (if t.request.op.rests then some Config.restMs else (s.bus n).restTimer) =
        if t.request.op.kind = .advance ∨ t.request.op.kind = .mark then some 1 else (s.bus n).restTimer := by
      by_cases hk : t.request.op.rests = true
      · rw [if_pos hk, if_pos ((rests_iff _).1 hk)]; rfl
      · rw [if_neg hk, if_neg fun k => hk ((rests_iff _).2 k)]
    unfold afterFailure
    rw [← hr]
    split <;> rfl
  unfold State.failTransaction; dsimp only
  rw [h]

theorem awaiting_some {n : Bus} {t : Transaction} (h : (s.bus n).current = some t) {k : TransactionKind} {p : Phase}
    (hk : t.request.op.kind = k) (hp : t.phase = p) : s.awaiting n k p = some t := by
  unfold State.awaiting
  rw [h]; dsimp only
  rw [if_pos (by simp [hk, hp])]

theorem together_ext {f g : State → State} (h : f s = g s) : s.together f = s.together g := by
  unfold State.together; rw [h]

/-- A failing MARK, whose failure completes no request. -/
theorem markFailed_together {n : Bus} {t : Transaction} {e : ErrorKind} {m : Mark} (h : t.request.op = .mark m) :
    s.together (fun s => s.failTransaction n t e) = s.failTransaction n t e := by
  refine State.together_of_link (s := s) (f := fun s => s.failTransaction n t e) ?_
  rw [failTransaction_eq]
  unfold State.deliverFailure
  rw [h]
  split <;> rfl

/-- The reply fails: it can be taken for nothing, it is REFUSED, it is BUSY, or a CONFIRM reads back another counter. -/
theorem replyFails_frame {t : Transaction} {frame : List Byte} {e : ErrorKind} {mark : Option α} {content : List Byte → Option α}
    (h : replyFails s t frame e) (hmark : t.request.op.kind ≠ .mark → mark = none)
    (hcontent : ∀ data, contentFails s t data → content data = none) :
    (e = .frameError ∧ frameFails mark content frame) ∨ (e = .refused ∧ frame = tokenFrame 0x01#8 []) ∨
      (e = .noResponse ∧ frame = tokenFrame 0x03#8 [] ∧
        (t.request.op.kind = .answerFetch → 4 ≤ (s.port t.bay).fetchCount)) ∨
      ∃ index target data, e = .verifyMismatch ∧ frame = tokenFrame 0x00#8 data ∧ data.length = 2 ∧
        t.request.op = .advance index target ∧ t.phase = .confirm ∧ leNat data ≠ target := by
  rcases h with ⟨he, h⟩ | ⟨st, data, he, hf, h⟩ | h | h | h
  · exact .inl ⟨he, .inl h⟩
  · refine .inl ⟨he, .inr ⟨st, data, hf, ?_⟩⟩
    rcases h with h | h | ⟨h, hc⟩ | ⟨h, hk⟩
    · exact .inl h
    · exact .inr (.inl h)
    · exact .inr (.inr (.inl ⟨h, hcontent _ hc⟩))
    · exact .inr (.inr (.inr ⟨h, hmark hk⟩))
  · exact .inr (.inl h)
  · exact .inr (.inr (.inl h))
  · exact .inr (.inr (.inr h))

/-- A reply that is no fetch's and no CONFIRM's fails with the kind its judgment gives. -/
theorem judge_fails {t : Transaction} {frame : List Byte} {e : ErrorKind} {mark : Option α} {content : List Byte → Option α}
    (h : replyFails s t frame e) (hmark : t.request.op.kind ≠ .mark → mark = none)
    (hcontent : ∀ data, contentFails s t data → content data = none)
    (hconfirm : ∀ index target, t.request.op = .advance index target → t.phase ≠ .confirm) :
    judgeReply false mark content frame = .bad e := by
  rcases replyFails_frame h hmark hcontent with ⟨rfl, hf⟩ | ⟨rfl, rfl⟩ | ⟨rfl, rfl, -⟩ | ⟨i, g, data, -, -, -, ho, hp, -⟩
  · exact judge_frameFails hf
  · exact judge_refused
  · exact judge_busy
  · exact absurd hp (hconfirm i g ho)

theorem noData_none {data : List Byte} (h : data ≠ []) : noData data = none := by
  unfold noData
  rw [if_neg (by simpa using h)]

theorem counterData_none {data : List Byte} (h : data.length ≠ 2) : counterData data = none := if_neg h

theorem answerData_none {data : List Byte} (h : data.length ≠ 16) : answerData data = none := if_neg h

theorem awaitedReply_cases {n : Bus} {t : Transaction} {c : Instr} {frame : List Byte} (h : awaitedReply n t frame = some c) :
    (t.request.op.kind = .identRead ∧ t.phase = .reply ∧ c = .identReadReply n frame) ∨
      (t.request.op.kind = .nonceSend ∧ t.phase = .acknowledgement ∧ c = .nonceSendAcknowledgement n frame) ∨
      (t.request.op.kind = .answerFetch ∧ t.phase = .fetch ∧ c = .answerFetchReply n frame) ∨
      (t.request.op.kind = .advance ∧ t.phase = .arm ∧ c = .armReply n frame) ∨
      (t.request.op.kind = .advance ∧ t.phase = .load ∧ c = .loadReply n frame) ∨
      (t.request.op.kind = .advance ∧ t.phase = .confirm ∧ c = .confirmReply n frame) ∨
      (t.request.op.kind = .mark ∧ t.phase = .reply ∧ c = .markReply n frame) ∨
      (t.request.op.kind = .checkRead ∧ t.phase = .reply ∧ c = .checkReadReply n frame) := by
  unfold awaitedReply at h
  split at h
  case h_9 => exact nomatch h
  all_goals
    rename_i hk hp
    obtain rfl := Option.some.inj h
    simp [hk, hp]

theorem kind_eq_identRead {op : BusOp} (h : op.kind = .identRead) : ∃ p, op = .identRead p := by
  cases op with
  | identRead p => exact ⟨p, rfl⟩
  | _ => exact nomatch h

theorem kind_eq_nonceSend {op : BusOp} (h : op.kind = .nonceSend) : ∃ k x, op = .nonceSend k x := by
  cases op with
  | nonceSend k x => exact ⟨k, x, rfl⟩
  | _ => exact nomatch h

theorem kind_eq_answerFetch {op : BusOp} (h : op.kind = .answerFetch) : ∃ k, op = .answerFetch k := by
  cases op with
  | answerFetch k => exact ⟨k, rfl⟩
  | _ => exact nomatch h

theorem kind_eq_advance {op : BusOp} (h : op.kind = .advance) : ∃ i g, op = .advance i g := by
  cases op with
  | advance i g => exact ⟨i, g, rfl⟩
  | _ => exact nomatch h

theorem kind_eq_mark {op : BusOp} (h : op.kind = .mark) : ∃ m, op = .mark m := by
  cases op with
  | mark m => exact ⟨m, rfl⟩
  | _ => exact nomatch h

theorem kind_eq_checkRead {op : BusOp} (h : op.kind = .checkRead) : ∃ i, op = .checkRead i := by
  cases op with
  | checkRead i => exact ⟨i, rfl⟩
  | _ => exact nomatch h

/-! #### One handler each -/

section
variable {n : Bus} {t : Transaction}

theorem identityReply_fails (hcur : (s.bus n).current = some t) (hk : t.request.op.kind = .identRead) (hp : t.phase = .reply)
    (h : replyFails s t frame e) : s.identityReply n frame = s.failTransaction n t e := by
  obtain ⟨page, ho⟩ := kind_eq_identRead hk
  unfold State.identityReply
  rw [awaiting_some hcur hk hp]; dsimp only
  rw [ho]; dsimp only
  rw [judge_fails (mark := none) (content := readPage page _) h (fun _ => rfl)
    (fun data hc => by unfold contentFails at hc; rw [ho] at hc; exact hc) (fun i g k => by rw [ho] at k; exact nomatch k)]

theorem nonceReply_fails (hcur : (s.bus n).current = some t) (hk : t.request.op.kind = .nonceSend) (hp : t.phase = .acknowledgement)
    (h : replyFails s t frame e) : s.nonceReply n frame = s.failTransaction n t e := by
  obtain ⟨k, x, ho⟩ := kind_eq_nonceSend hk
  have hj := judge_fails (mark := none) (content := noData) h (fun _ => rfl)
    (fun data hc => by unfold contentFails at hc; rw [ho] at hc; exact noData_none hc) (fun i g k => by rw [ho] at k; exact nomatch k)
  unfold State.nonceReply
  rw [awaiting_some hcur hk hp]; dsimp only
  rw [hj]

theorem fetchReply_fails (hcur : (s.bus n).current = some t) (hk : t.request.op.kind = .answerFetch) (hp : t.phase = .fetch)
    (h : replyFails s t frame e) : s.fetchReply n frame = s.failTransaction n t e := by
  obtain ⟨k, ho⟩ := kind_eq_answerFetch hk
  unfold State.fetchReply
  rw [awaiting_some hcur hk hp]; dsimp only
  rcases replyFails_frame (mark := none) (content := answerData) h (fun _ => rfl)
    (fun data hc => by unfold contentFails at hc; rw [ho] at hc; exact answerData_none hc) with
    ⟨rfl, hf⟩ | ⟨rfl, rfl⟩ | ⟨rfl, rfl, hb⟩ | ⟨i, g, data, -, -, -, ho', -, -⟩
  · rw [judge_frameFails hf]
  · rw [judge_refused]
  · rw [judge_busy, if_pos rfl]; dsimp only
    rw [if_neg (Nat.not_lt.2 (hb hk))]
  · rw [ho] at ho'; exact nomatch ho'

theorem armReplied_fails (hcur : (s.bus n).current = some t) (hk : t.request.op.kind = .advance) (hp : t.phase = .arm)
    (h : replyFails s t frame e) : s.armReplied n frame = s.failTransaction n t e := by
  obtain ⟨i, g, ho⟩ := kind_eq_advance hk
  have hj := judge_fails (mark := none) (content := noData) h (fun _ => rfl)
    (fun data hc => by
      unfold contentFails at hc
      rw [ho, hp] at hc
      exact noData_none (by simpa using hc)) (fun _ _ _ => by rw [hp]; decide)
  unfold State.armReplied
  rw [awaiting_some hcur hk hp]; dsimp only
  rw [hj]

theorem loadReplied_fails (hcur : (s.bus n).current = some t) (hk : t.request.op.kind = .advance) (hp : t.phase = .load)
    (h : replyFails s t frame e) : s.loadReplied n frame = s.failTransaction n t e := by
  obtain ⟨i, g, ho⟩ := kind_eq_advance hk
  have hj := judge_fails (mark := none) (content := noData) h (fun _ => rfl)
    (fun data hc => by
      unfold contentFails at hc
      rw [ho, hp] at hc
      exact noData_none (by simpa using hc)) (fun _ _ _ => by rw [hp]; decide)
  unfold State.loadReplied
  rw [awaiting_some hcur hk hp]; dsimp only
  rw [hj]

theorem confirmReplied_fails (hcur : (s.bus n).current = some t) (hk : t.request.op.kind = .advance) (hp : t.phase = .confirm)
    (h : replyFails s t frame e) : s.confirmReplied n frame = s.failTransaction n t e := by
  obtain ⟨i, g, ho⟩ := kind_eq_advance hk
  unfold State.confirmReplied
  rw [awaiting_some hcur hk hp]; dsimp only
  rw [ho]; dsimp only
  rcases replyFails_frame (mark := none) (content := counterData) h (fun _ => rfl)
    (fun data hc => by
      unfold contentFails at hc
      rw [ho, hp] at hc
      exact counterData_none (by simpa using hc)) with
    ⟨rfl, hf⟩ | ⟨rfl, rfl⟩ | ⟨rfl, rfl, -⟩ | ⟨i', g', data, rfl, rfl, hd, ho', -, hne⟩
  · rw [judge_frameFails hf]
  · rw [judge_refused]
  · rw [judge_busy]; rfl
  · rw [ho] at ho'
    obtain ⟨-, rfl⟩ := BusOp.advance.inj ho'
    rw [judge_ok (a := leNat data) (if_pos hd)]; dsimp only
    rw [if_neg hne]

theorem markReplied_fails (hcur : (s.bus n).current = some t) (hk : t.request.op.kind = .mark) (hp : t.phase = .reply)
    (h : replyFails s t frame e) : s.markReplied n frame = s.failTransaction n t e := by
  obtain ⟨m, ho⟩ := kind_eq_mark hk
  have hj := judge_fails (mark := some ()) (content := noData) h (fun k => absurd hk k)
    (fun data hc => by unfold contentFails at hc; rw [ho] at hc; exact noData_none hc) (fun i g k => by rw [ho] at k; exact nomatch k)
  unfold State.markReplied
  rw [awaiting_some hcur hk hp]; dsimp only
  rw [ho]; dsimp only
  rw [hj]

theorem checkReplied_fails (hcur : (s.bus n).current = some t) (hk : t.request.op.kind = .checkRead) (hp : t.phase = .reply)
    (h : replyFails s t frame e) : s.checkReplied n frame = s.failTransaction n t e := by
  obtain ⟨i, ho⟩ := kind_eq_checkRead hk
  have hj := judge_fails (mark := none) (content := counterData) h (fun _ => rfl)
    (fun data hc => by unfold contentFails at hc; rw [ho] at hc; exact counterData_none hc)
    (fun i g k => by rw [ho] at k; exact nomatch k)
  unfold State.checkReplied
  rw [awaiting_some hcur hk hp]; dsimp only
  rw [hj]

/-- A command that makes a transaction fail (R26, R38 to R45). -/
theorem exec_fails {c : Instr} (hcur : (s.bus n).current = some t) (h : transactionFails s c n t e) :
    exec c s = .next (s.together fun s => s.failTransaction n t e) := by
  rcases h with ⟨rfl, hp, rfl⟩ | ⟨frame, hc, h⟩
  · refine congrArg Host.Outcome.next (together_ext ?_)
    unfold State.replyTimedOut
    rw [hcur]; dsimp only
    rw [if_neg hp]
  · rcases awaitedReply_cases hc with ⟨hk, hp, rfl⟩ | ⟨hk, hp, rfl⟩ | ⟨hk, hp, rfl⟩ | ⟨hk, hp, rfl⟩ | ⟨hk, hp, rfl⟩ |
      ⟨hk, hp, rfl⟩ | ⟨hk, hp, rfl⟩ | ⟨hk, hp, rfl⟩
    · exact congrArg Host.Outcome.next (together_ext (identityReply_fails hcur hk hp h))
    · exact congrArg Host.Outcome.next (together_ext (nonceReply_fails hcur hk hp h))
    · exact congrArg Host.Outcome.next (together_ext (fetchReply_fails hcur hk hp h))
    · exact congrArg Host.Outcome.next (together_ext (armReplied_fails hcur hk hp h))
    · exact congrArg Host.Outcome.next (together_ext (loadReplied_fails hcur hk hp h))
    · exact congrArg Host.Outcome.next (together_ext (confirmReplied_fails hcur hk hp h))
    · obtain ⟨m, ho⟩ := kind_eq_mark hk
      rw [markFailed_together ho]
      exact congrArg Host.Outcome.next (markReplied_fails hcur hk hp h)
    · exact congrArg Host.Outcome.next (together_ext (checkReplied_fails hcur hk hp h))

end

end Sys2Proof.Machine
end

section
/-! PROOF. O20: a failing transaction. -/

namespace Sys2Proof.Machine

open Sys2Proof.Safety

variable {s w x y : State} {b : Bay}

/-! ### What reaches the bay leaves the buses (R45) -/

/-- Between `w` and `x` no fault record is written, an idle bus of bay `b` and the other buses stay, and a fetch count of 0 stays. -/
structure busesStay (b : Bay) (w x : State) : Prop where
  faults : x.notice.faults = w.notice.faults
  buses : (w.bus (busOf b)).current = none → x.buses = w.buses
  count : (w.port b).fetchCount = 0 → (x.port b).fetchCount = 0

theorem busesStay.rfl' (h1 : x.notice.faults = w.notice.faults) (h2 : x.buses = w.buses) (h3 : x.ports = w.ports) : busesStay b w x :=
  ⟨h1, fun _ => h2, fun h => by unfold State.port at h ⊢; rw [h3]; exact h⟩

theorem busesStay.trans (h : busesStay b w x) (k : busesStay b x y) : busesStay b w y where
  faults := k.faults.trans h.faults
  buses hc := by
    have h1 := h.buses hc
    have hx : (x.bus (busOf b)).current = none := by unfold State.bus at hc ⊢; rw [h1]; exact hc
    exact (k.buses hx).trans h1
  count hc := k.count (h.count hc)

theorem leaveTo_busesStay (s : State) (b : Bay) (t : BayState) (r : RejectReason) : busesStay b s (s.leaveTo b t r) := by
  rw [leaveTo_eq]
  refine ⟨rfl, fun hc => ?_, fun _ => ?_⟩
  · refine upd_id _ _ _ ?_
    unfold endedBus
    change (s.bus (busOf b)).current = none at hc
    unfold State.bus at hc
    rw [hc]
    cases hb : s.buses[busOf b]
    rw [hb] at hc
    cases hc; rfl
  · exact congrArg Port.fetchCount (upd_get_same s.ports b endedPort)

theorem faultBay_busesStay (s : State) (b : Bay) : busesStay b s (s.faultBay b) := by
  refine (leaveTo_busesStay s b .faulted .none).trans ?_
  obtain ⟨l, q, h⟩ := State.settleWaits_only ((s.leaveTo b .faulted .none).raise .bayFaulted b) b failedEnding
  unfold State.faultBay
  rw [h]
  exact .rfl' rfl rfl rfl

theorem closeWithLiability_busesStay (s : State) (b : Bay) : busesStay b s (s.closeWithLiability b) := by
  obtain ⟨a, t, v, l, q, j, c, h, -⟩ := s.closeWithLiability_only b
  rw [h]
  exact .rfl' rfl rfl rfl

theorem rejectBay_busesStay (s : State) (b : Bay) (r : RejectReason) : busesStay b s (s.rejectBay b r) := by
  refine (leaveTo_busesStay s b .rejected r).trans ((closeWithLiability_busesStay _ b).trans ?_)
  obtain ⟨l, q, h⟩ := State.settleWaits_only (((s.leaveTo b .rejected r).closeWithLiability b).raise r.notice b) b failedEnding
  unfold State.rejectBay
  rw [h]
  exact .rfl' rfl rfl rfl

theorem pageFailed_busesStay (s : State) (b : Bay) : busesStay b s (s.pageFailed b) := by
  unfold State.pageFailed; dsimp only
  split
  · exact .rfl' rfl rfl rfl
  · unfold State.faultIdentification; dsimp only
    refine .trans ?_ (faultBay_busesStay _ b)
    obtain ⟨t, j, c, h⟩ := State.unbind_only (State.modBay (s.modBay b fun r => { r with readAttempts := r.readAttempts + 1 }) b
      fun r => { r with identityPage := none, calibrationPage := none, usagePage := none }) b
    rw [h]
    exact .rfl' rfl rfl rfl

/-- The two outcomes of an exchange that a failure ends (R58). -/
theorem judge_failed {c : Context} (h : c.endCause ≠ .none) (enabled : Bool) :
    c.judge enabled = .noLongerEnabled ∨ c.judge enabled = .communication := by
  unfold Context.judge
  split
  · exact .inl rfl
  · rw [if_pos (bne_iff_ne.2 h)]; exact .inr rfl

theorem judgeExchange_failed_busesStay (h : (s.context b).endCause ≠ .none) : busesStay b s (s.judgeExchange b) := by
  have hcom : ∀ z : State, busesStay b s z → busesStay b s
      (if ((z.modBay b fun r => { r with commFailures := r.commFailures + 1 }).bay b).commFailures < 3 then
        z.modBay b fun r => { r with commFailures := r.commFailures + 1 }
      else (z.modBay b fun r => { r with commFailures := r.commFailures + 1 }).faultBay b) := fun z hz => by
    refine hz.trans ?_
    split
    · exact .rfl' rfl rfl rfl
    · refine .trans ?_ (faultBay_busesStay _ b)
      exact .rfl' rfl rfl rfl
  have hrej : ∀ z : State, busesStay b s z → busesStay b s (z.rejectBay b .unknownIssuer) := fun z hz =>
    hz.trans (rejectBay_busesStay _ b _)
  unfold State.judgeExchange; dsimp only
  split
  · rcases judge_failed h (s.slotEnabled (s.context b).slot) with ho | ho
    · rw [ho]; exact hrej _ (.rfl' rfl rfl rfl)
    · rw [ho]; exact hcom _ (.rfl' rfl rfl rfl)
  · rcases judge_failed h (s.slotEnabled (s.context b).slot) with ho | ho
    · rw [ho]; exact hrej _ (.rfl' rfl rfl rfl)
    · rw [ho]; exact hcom _ (.rfl' rfl rfl rfl)
  · exact .rfl' rfl rfl rfl

theorem countFailure_busesStay (s : State) (b : Bay) : busesStay b s (s.countFailure b) := by
  unfold State.countFailure; dsimp only
  split
  · exact .rfl' rfl rfl rfl
  · refine .trans ?_ (faultBay_busesStay _ b)
    exact .rfl' rfl rfl rfl

theorem raiseIf_busesStay (s : State) (p : Bool) (k : NoticeKind) (c : Bay) : busesStay b s (s.raiseIf p k c) := by
  obtain ⟨v, h⟩ := raiseIf_fields s p k c
  rw [h]
  exact .rfl' rfl rfl rfl

theorem advanceFailed_busesStay (s : State) (b : Bay) (p : Phase) : busesStay b s (s.advanceFailed b p) := by
  unfold State.advanceFailed
  split
  · split
    · exact .rfl' rfl rfl rfl
    · exact (countFailure_busesStay s b).trans (raiseIf_busesStay _ _ _ _)
  · exact .rfl' rfl rfl rfl

theorem deliverFailure_busesStay (s : State) (t : Transaction) : busesStay t.bay s (s.deliverFailure t) := by
  unfold State.deliverFailure
  split
  · exact pageFailed_busesStay s t.bay
  · refine .trans ?_ (judgeExchange_failed_busesStay ?_)
    · exact .rfl' rfl rfl rfl
    · rw [State.context_modContext_same]; exact fun h => nomatch h
  · refine .trans ?_ (judgeExchange_failed_busesStay ?_)
    · exact .rfl' rfl rfl rfl
    · rw [State.context_modContext_same]; exact fun h => nomatch h
  · exact advanceFailed_busesStay s t.bay t.phase
  · exact .rfl' rfl rfl rfl
  · unfold State.checkFailed
    split
    · exact faultBay_busesStay s t.bay
    · exact .rfl' rfl rfl rfl

/-! ### The ended transaction -/

theorem afterFailure_bus (s : State) (n : Bus) (t : Transaction) (e : ErrorKind) :
    (afterFailure s n t e).bus n = idleBus (s.bus n)
      (if t.request.op.kind = .advance ∨ t.request.op.kind = .mark then some 1 else (s.bus n).restTimer) :=
  upd_get_same s.buses n fun u => idleBus u _

theorem afterFailure_bus_ne {n m : Bus} (h : m ≠ n) (t : Transaction) (e : ErrorKind) : (afterFailure s n t e).bus m = s.bus m :=
  upd_get_ne s.buses (fun u => idleBus u _) h

theorem afterFailure_fetch (n : Bus) {t : Transaction} (e : ErrorKind) (h : t.request.op.kind = .answerFetch) :
    ((afterFailure s n t e).port t.bay).fetchCount = 0 := by
  unfold afterFailure State.port
  dsimp only
  rw [if_pos h]
  exact congrArg Port.fetchCount (upd_get_same s.ports t.bay fun q => { q with fetchCount := 0 })

/-- Where the result is discarded, the failing transaction ends and nothing more changes (R47, R61). -/
theorem exec_fails_discarded {n : Bus} {t : Transaction} {c : Instr} {e : ErrorKind} (hcur : (s.bus n).current = some t)
    (h : transactionFails s c n t e) (hd : t.discarded = true) : exec c s = .next (afterFailure s n t e) := by
  have hf : s.failTransaction n t e = afterFailure s n t e := by rw [failTransaction_eq, if_pos hd]
  rw [exec_fails hcur h]
  exact congrArg Host.Outcome.next
    ((State.together_of_link (s := s) (f := fun s => s.failTransaction n t e) (by rw [hf]; rfl)).trans hf)

/-- Else the bay is told. -/
theorem exec_fails_told {n : Bus} {t : Transaction} {c : Instr} {e : ErrorKind} (hcur : (s.bus n).current = some t)
    (h : transactionFails s c n t e) (hd : t.discarded = false) :
    exec c s = .next (s.together fun s => (afterFailure s n t e).deliverFailure t) := by
  rw [exec_fails hcur h]
  refine congrArg Host.Outcome.next (together_ext ?_)
  rw [failTransaction_eq, if_neg (by rw [hd]; exact Bool.false_ne_true)]

theorem exec_fails_only {n : Bus} {t : Transaction} {c : Instr} {e : ErrorKind} {u : State} (hcur : (s.bus n).current = some t)
    (h : transactionFails s c n t e) (hd : t.discarded = false) (hu : (afterFailure s n t e).deliverFailure t = u)
    (hl : u.link = s.link) : exec c s = .next u := by
  rw [exec_fails_told hcur h hd]
  exact congrArg Host.Outcome.next ((State.together_of_link (s := s)
    (f := fun s => (afterFailure s n t e).deliverFailure t) (by rw [hu]; exact hl)).trans hu)

/-! ### Page reads (R6) -/

theorem entry_joinSet (s : State) (z x : Serial) : (s.joinSet z).entry x = s.entry x := by
  obtain ⟨l, c, h⟩ := s.joinSet_only z
  rw [h]; rfl

/-- An unbinding leaves every entry but the bay's as it was (R124). -/
theorem unbind_entry (s : State) (b : Bay) (x : Serial) :
    (s.unbind b).entry x = (s.entry x).map fun h => if (s.bay b).serial = some x then { h with bay := none } else h := by
  unfold State.unbind
  cases hs : (s.bay b).serial with
  | none =>
    cases s.entry x <;> rfl
  | some z =>
    change ((s.modEntry z fun e => { e with bay := none }).joinSet z).entry x = _
    rw [entry_joinSet]
    by_cases hz : z = x
    · subst hz
      rw [State.entry_modEntry s z (fun e => { e with bay := none }) fun _ => rfl]
      simp
    · rw [State.entry_modEntry_ne s (fun e => { e with bay := none }) (fun _ => rfl) fun h => hz h.symm]
      cases s.entry x
      · rfl
      · simp [hz]

/-- The bay's pages as read are discarded and its entry unbound, the bay not yet FAULTED (R6, R124). -/
def unidentified (s : State) (b : Bay) : State :=
  ((s.modBay b fun r => { r with readAttempts := r.readAttempts + 1 }).modBay b fun r =>
    { r with identityPage := none, calibrationPage := none, usagePage := none }).unbind b

theorem unidentified_only (s : State) (b : Bay) : ∃ t j c, unidentified s b = { s with
    bays := upd s.bays b fun r => { r with
      readAttempts := r.readAttempts + 1, identityPage := none, calibrationPage := none, usagePage := none, serial := none }
    refill := { s.refill with table := t }, journal := { s.journal with appendSet := j, copyStale := c } } := by
  obtain ⟨t, j, c, h⟩ := State.unbind_only ((s.modBay b fun r => { r with readAttempts := r.readAttempts + 1 }).modBay b fun r =>
    { r with identityPage := none, calibrationPage := none, usagePage := none }) b
  refine ⟨t, j, c, h.trans ?_⟩
  simp only [State.modBay, upd_upd]

theorem pageFailed_counts (h : (s.bay b).readAttempts < 2) :
    s.pageFailed b = withBayRec s b { s.bay b with readAttempts := (s.bay b).readAttempts + 1 } := by
  unfold State.pageFailed; dsimp only
  rw [if_pos]
  · rfl
  · rw [State.bay_modBay_same]; exact Nat.succ_lt_succ h

theorem pageFailed_faults (h : 2 ≤ (s.bay b).readAttempts) : s.pageFailed b = (unidentified s b).faultBay b := by
  unfold State.pageFailed; dsimp only
  rw [if_neg]
  · rfl
  · rw [State.bay_modBay_same]; exact Nat.not_lt.2 (Nat.succ_le_succ h)

/-- Settles O20: the transaction ends, and its failure reaches the bay unless the result is discarded. -/
theorem replyTimeoutFailsTheTransaction : Obligations.ReplyTimeoutFailsTheTransaction := by
  intro s n t c e hcur hn h
  refine ⟨?_, exec_fails_discarded hcur h, fun page ho hd => ⟨fun hr => ?_, fun hr => ?_⟩⟩
  · cases hd : t.discarded with
    | true =>
      exact ⟨_, exec_fails_discarded hcur h hd, rfl, afterFailure_bus s n t e, afterFailure_fetch n e,
        fun m hm => afterFailure_bus_ne hm t e⟩
    | false =>
      have hstay := deliverFailure_busesStay (afterFailure s n t e) t
      have hidle : ((afterFailure s n t e).bus (busOf t.bay)).current = none := by rw [hn, afterFailure_bus]; rfl
      have hb := hstay.buses hidle
      refine ⟨_, exec_fails_told hcur h hd, ?_, ?_, fun hk => ?_, fun m hm => ?_⟩
      · rw [State.together_notice]; exact hstay.faults
      · rw [State.bus_together]; unfold State.bus; rw [hb]; exact afterFailure_bus s n t e
      · rw [State.port_together]; exact hstay.count (afterFailure_fetch n e hk)
      · rw [State.bus_together]; unfold State.bus; rw [hb]; exact afterFailure_bus_ne hm t e
  · have hf : (afterFailure s n t e).deliverFailure t = withBayRec (afterFailure s n t e) t.bay
        { s.bay t.bay with readAttempts := (s.bay t.bay).readAttempts + 1 } := by
      unfold State.deliverFailure
      rw [ho]
      exact pageFailed_counts (s := afterFailure s n t e) hr
    exact exec_fails_only hcur h hd hf rfl
  · have hf : (afterFailure s n t e).deliverFailure t = (unidentified (afterFailure s n t e) t.bay).faultBay t.bay := by
      unfold State.deliverFailure
      rw [ho]
      exact pageFailed_faults (s := afterFailure s n t e) hr
    obtain ⟨g, j, cp, hu⟩ := unidentified_only (afterFailure s n t e) t.bay
    obtain ⟨p, u, jobs, comp, l, q, hfb, -⟩ := (unidentified (afterFailure s n t e) t.bay).faultBay_only t.bay
    have hbay : ((unidentified (afterFailure s n t e) t.bay).faultBay t.bay).bay t.bay =
        { (unidentified (afterFailure s n t e) t.bay).bay t.bay with
          fetchDue := false, state := .faulted, rejectReason := .none, rechallenge := .idle, rechallengeTimer := none } := by
      rw [hfb]; exact upd_get_same _ _ _
    have hrec : (unidentified (afterFailure s n t e) t.bay).bay t.bay = { s.bay t.bay with
        readAttempts := (s.bay t.bay).readAttempts + 1, identityPage := none, calibrationPage := none, usagePage := none
        serial := none } := by
      rw [hu]; exact upd_get_same _ _ _
    rw [hrec] at hbay
    refine ⟨_, exec_fails_told hcur h hd, faultsBay_together hf ?_ ?_ ?_ ?_, ?_, ?_, ?_, ?_, ?_, ?_, fun x => ?_⟩
    · intro d hd; rw [hu]; exact upd_get_ne _ _ hd
    · rw [hu]; rfl
    · rw [hu]; rfl
    · rw [hu]; rfl
    · rw [State.bay_together, hf, hbay]
    · rw [State.bay_together, hf, hbay]
    · rw [State.bay_together, hf, hbay]
    · rw [State.bay_together, hf, hbay]
    · rw [State.together_accounts, hf, hfb, hu]; rfl
    · rw [State.together_refill, hf, hfb, hu]; rfl
    · rw [State.entry_together, hf, hfb]
      refine (unbind_entry (State.modBay ((afterFailure s n t e).modBay t.bay fun r => { r with readAttempts := r.readAttempts + 1 })
        t.bay fun r => { r with identityPage := none, calibrationPage := none, usagePage := none }) t.bay x).trans ?_
      rw [State.bay_modBay_same, State.bay_modBay_same]
      rfl

end Sys2Proof.Machine
end

section
/-! PROOF. O23, O24 and O26: the engine's end, the phases of an ADVANCE and the outcomes of a MARK. -/

namespace Sys2Proof.Machine

open Sys2Proof.Safety

variable {s : State} {b : Bay}

/-- An event that places no reply. -/
theorem together_silent {f : State → State} {u : State} (hu : f s = u) (hl : u.link = s.link) : s.together f = u :=
  (State.together_of_link (s := s) (f := f) (by rw [hu]; exact hl)).trans hu

/-! ### Engine-done (R55, R56) -/

/-- The digest once the engine has ended its job, no other begun. -/
def endedDigest (s : State) (c : Computing) : Digest :=
  if c.discarded = true then { s.digest with computing := none } else { s.digest with
      computing := none
      contexts := s.digest.contexts.set c.bay { s.context c.bay with job := .done, expected := .present c.answer } }

theorem judgeIfComplete_open (h : (s.context b).tokenAnswer = none) : s.judgeIfComplete b = s := by
  unfold State.judgeIfComplete
  rw [h]; rfl

theorem engineDone_eq {c : Computing} (hc : s.digest.computing = some c)
    (h : c.discarded = true ∨ (s.context c.bay).tokenAnswer = none) :
    s.engineDone = State.runEngine { s with digest := endedDigest s c } := by
  unfold State.engineDone
  rw [hc]; dsimp only
  cases hd : c.discarded with
  | true =>
    rw [if_pos rfl, show endedDigest s c = { s.digest with computing := none } from if_pos hd]; rfl
  | false =>
    rw [if_neg Bool.false_ne_true, judgeIfComplete_open]
    · rw [show endedDigest s c = _ from if_neg (by rw [hd]; exact Bool.false_ne_true)]; rfl
    · rw [State.context_modContext_same]
      exact h.resolve_left (by rw [hd]; exact Bool.false_ne_true)

theorem endedDigest_kept (s : State) (c : Computing) : (endedDigest s c).queue = s.digest.queue ∧
    (endedDigest s c).computing = none ∧ (endedDigest s c).slots = s.digest.slots := by
  unfold endedDigest
  split <;> exact ⟨rfl, rfl, rfl⟩

/-- The end of one job leaves the token's answers as they were. -/
theorem endedDigest_tokenAnswer (s : State) (c : Computing) (b : Bay) :
    (endedDigest s c).contexts[b].tokenAnswer = (s.context b).tokenAnswer := by
  unfold endedDigest
  split
  · rfl
  · by_cases hb : b = c.bay
    · subst hb
      have h := upd_get_same s.digest.contexts c.bay fun x => { x with job := .done, expected := .present c.answer }
      exact (congrArg Context.tokenAnswer h :)
    · have h := upd_get_ne s.digest.contexts (fun x => { x with job := .done, expected := .present c.answer }) hb
      exact (congrArg Context.tokenAnswer h :)

/-- Settles O23: the engine ends its job, and takes the next. -/
theorem engineDoneGivesTheExpectedAnswer : Obligations.EngineDoneGivesTheExpectedAnswer := by
  intro s c hc hopen ended
  obtain ⟨hq, hcomp, hslots⟩ := endedDigest_kept s c
  have hslot : ∀ k, State.slot { s with digest := endedDigest s c } k = s.slot k := fun k => by
    unfold State.slot; dsimp only; rw [hslots]
  have hexec : ∀ u : State, State.runEngine { s with digest := endedDigest s c } = u → u.link = s.link →
      exec .engineDone s = .next u := fun u hu hl =>
    congrArg Host.Outcome.next (together_silent ((engineDone_eq hc hopen).trans hu) hl)
  refine ⟨fun hempty => ?_, fun j rest hqueue => ⟨fun secret he hs => ?_, fun he hrest ht => ?_⟩⟩
  · exact hexec _ (runEngine_empty (s := { s with digest := endedDigest s c }) (hq.trans hempty)) rfl
  · exact hexec _ (runEngine_takes (s := { s with digest := endedDigest s c }) hcomp (hq.trans hqueue)
      ((congrArg Slot.state (hslot j.slot)).trans he) ((congrArg Slot.secret (hslot j.slot)).trans hs)) rfl
  · subst hrest
    have h := runEngine_withholds (s := { s with digest := endedDigest s c }) hcomp (hq.trans hqueue)
      (by rw [hslot]; exact he) ((endedDigest_tokenAnswer s c j.bay).trans ht)
    exact hexec _ h rfl

/-! ### The phases of an ADVANCE (R41) -/

theorem setPhase_eq {n : Bus} {t : Transaction} (h : (s.bus n).current = some t) (p : Phase) :
    s.setPhase n p = withBusState s n { s.bus n with current := some { t with phase := p } } := by
  have : ({ s.bus n with current := (s.bus n).current.map fun t => { t with phase := p } } : BusState) =
      { s.bus n with current := some { t with phase := p } } := by rw [h]; rfl
  exact congrArg (withBusState s n) this

/-- A check of the allowance that finds it as it was, or the bay not ADMITTED (R108). -/
theorem allowanceChecked_same {f : State → State} (h : (f s).allowance b = s.allowance b ∨ ((f s).bay b).state ≠ .admitted) :
    s.allowanceChecked b f = f s := by
  unfold State.allowanceChecked State.raiseIf; dsimp only
  rw [if_neg]
  rcases h with h | h
  · rw [h]; simp only [Bool.and_eq_true, decide_eq_true_eq]; omega
  · simp [h]

theorem countFailure_below (h : (s.account b).failures < 2) :
    s.countFailure b = withSource (withAccount s b { s.account b with
      inFlight := 0, commitState := .idle, failures := (s.account b).failures + 1 })
      .commitRetry (joined (s.source .commitRetry) b) := by
  unfold State.countFailure; dsimp only
  rw [if_pos]
  · rfl
  · rw [State.account_modAccount_same]; exact Nat.succ_lt_succ h

/-- The account whose commit did not land, its failure counted (R97). -/
def Account.counted (a : Account) : Account := { a with inFlight := 0, commitState := .idle, failures := a.failures + 1 }

theorem countFailure_third (h : 2 ≤ (s.account b).failures) :
    s.countFailure b = (withAccount s b (s.account b).counted).faultBay b := by
  unfold State.countFailure; dsimp only
  rw [if_neg]
  · rfl
  · rw [State.account_modAccount_same]; exact Nat.not_lt.2 (Nat.succ_le_succ h)

theorem faultBay_state (s : State) (b : Bay) : ((s.faultBay b).bay b).state = .faulted := by
  obtain ⟨p, u, jobs, comp, l, q, h, -⟩ := s.faultBay_only b
  rw [h]
  exact congrArg BayRec.state (upd_get_same s.bays b fun _ => _)

/-- A commit not landed leaves the allowance, or faults the bay (R97). -/
theorem commitNotLanded_eq (s : State) (b : Bay) : s.commitNotLanded b = s.countFailure b := by
  refine allowanceChecked_same ?_
  by_cases h : (s.account b).failures < 2
  · refine .inl ?_
    rw [countFailure_below h]
    unfold State.allowance
    rw [show (withSource (withAccount s b { s.account b with
      inFlight := 0, commitState := .idle, failures := (s.account b).failures + 1 })
      .commitRetry (joined (s.source .commitRetry) b)).account b = { s.account b with
        inFlight := 0, commitState := .idle, failures := (s.account b).failures + 1 } from
      upd_get_same s.accounts b fun a => { a with inFlight := 0, commitState := .idle, failures := a.failures + 1 }]
    rfl
  · refine .inr ?_
    rw [countFailure_third (Nat.not_lt.1 h), faultBay_state]
    decide

theorem deliverFailure_advance {w : State} {t : Transaction} (ho : t.request.op.kind = .advance)
    (hl : (w.account t.bay).live = true) (hc : (w.account t.bay).commitState = .advance) :
    w.deliverFailure t = if advanceInDoubt t.phase then w.commitInDoubt t.bay else w.countFailure t.bay := by
  obtain ⟨i, g, ho⟩ := kind_eq_advance ho
  unfold State.deliverFailure
  rw [ho]
  dsimp only
  unfold State.advanceFailed
  rw [if_pos (by simp [State.awaitsAdvance, hl, hc]), commitNotLanded_eq]

/-- Settles O24: each reply sets the next phase; a failure's report follows its phase. -/
theorem advanceRunsItsPhases : Obligations.AdvanceRunsItsPhases := by
  intro s n t hcur hk
  refine ⟨fun hp => ?_, fun hp => ?_, fun hp => ?_, fun c e hn hf hd hlive hcs => ⟨fun hp => ⟨fun hb => ?_, fun hb => ?_⟩, fun hp => ?_⟩⟩
  · refine congrArg Host.Outcome.next (together_silent (f := fun s => s.armReplied n _) ?_ rfl)
    unfold State.armReplied
    rw [awaiting_some hcur hk hp]; dsimp only
    rw [judge_ok (a := ()) rfl]
    exact setPhase_eq hcur _
  · refine congrArg Host.Outcome.next (together_silent (f := fun s => s.loadReplied n _) ?_ rfl)
    unfold State.loadReplied
    rw [awaiting_some hcur hk hp]; dsimp only
    rw [judge_ok (a := ()) rfl]
    exact setPhase_eq hcur _
  · refine congrArg Host.Outcome.next ?_
    unfold State.burnEnded
    rw [awaiting_some hcur hk hp]
    exact setPhase_eq hcur _
  · refine exec_fails_only hcur hf hd ?_ rfl
    rw [deliverFailure_advance (w := afterFailure s n t e) hk hlive hcs, if_neg (by simp [advanceInDoubt, hp])]
    exact countFailure_below (s := afterFailure s n t e) hb
  · have hdel := deliverFailure_advance (w := afterFailure s n t e) hk hlive hcs
    rw [if_neg (by simp [advanceInDoubt, hp]), countFailure_third (s := afterFailure s n t e) hb] at hdel
    obtain ⟨v, hv⟩ : ∃ v, v = withAccount (afterFailure s n t e) t.bay ((afterFailure s n t e).account t.bay).counted := ⟨_, rfl⟩
    rw [← hv] at hdel
    have hstay := (faultBay_busesStay v t.bay).buses (by rw [hn, hv]; exact congrArg BusState.current (afterFailure_bus s n t e))
    have hfaults := (faultBay_busesStay v t.bay).faults
    obtain ⟨p, u, jobs, comp, l, q, h, -⟩ := v.faultBay_only t.bay
    refine ⟨_, exec_fails_told hcur hf hd, faultsBay_together hdel (by rw [hv]; exact fun _ _ => rfl) (by rw [hv]; rfl)
      (by rw [hv]; rfl) (by rw [hv]; rfl), ?_, ?_, ?_, ?_, ?_⟩
    · rw [State.together_accounts, hdel, h, hv]; rfl
    · rw [State.bus_together, hdel]
      exact (congrArg (fun v : Vector BusState 3 => v[n]) hstay).trans (by rw [hv]; rfl)
    · rw [State.together_notice, hdel, hfaults, hv]; rfl
    · rw [State.together_refill, hdel, h, hv]; rfl
    · rw [State.together_journal, hdel, h, hv]; rfl
  · refine exec_fails_only hcur hf hd ?_ rfl
    rw [deliverFailure_advance (w := afterFailure s n t e) hk hlive hcs, if_pos]
    · rfl
    · rcases hp with hp | hp <;> simp [advanceInDoubt, hp]

/-! ### MARK (R43, R102) -/

theorem failOrder_other {m : Mark} {os : List MarkOrder} (h : ∀ q ∈ os, q.mark ≠ m) : failOrder m os = os := by
  unfold failOrder
  induction os with
  | nil => rfl
  | cons o os ih =>
    rw [List.filterMap_cons, if_neg (h o List.mem_cons_self), ih fun q hq => h q (List.mem_cons_of_mem _ hq)]

theorem failOrder_append (m : Mark) (as bs : List MarkOrder) : failOrder m (as ++ bs) = failOrder m as ++ failOrder m bs :=
  List.filterMap_append

theorem failOrder_one (m : Mark) (o : MarkOrder) (older newer : List MarkOrder) (ho : o.mark = m)
    (h : ∀ q ∈ older ++ newer, q.mark ≠ m) : failOrder m (older ++ o :: newer) =
      if o.attempts < 3 then older ++ { o with attempts := o.attempts + 1 } :: newer else older ++ newer := by
  have h1 := failOrder_other fun q hq => h q (List.mem_append_left _ hq)
  have h2 := failOrder_other fun q hq => h q (List.mem_append_right _ hq)
  have h3 : failOrder m (o :: newer) =
      if o.attempts < 3 then { o with attempts := o.attempts + 1 } :: failOrder m newer else failOrder m newer := by
    unfold failOrder
    rw [List.filterMap_cons, if_pos ho]
    by_cases hc : o.attempts < 3
    · rw [if_pos hc, if_pos hc]
    · rw [if_neg hc, if_neg hc]
  rw [failOrder_append, h3, h1, h2]
  split <;> rfl

theorem markReplied_good {n : Bus} {t : Transaction} {m : Mark} {status : Byte} (hcur : (s.bus n).current = some t)
    (ho : t.request.op = .mark m) (hp : t.phase = .reply) (hd : t.discarded = false)
    (hs : status = 0x00#8 ∨ status = 0x02#8) :
    s.markReplied n (tokenFrame status []) = (withBusState s n (idleBus (s.bus n) (some 1))).markDone t.bay m := by
  have hj : judgeReply false (some ()) noData (tokenFrame status []) = .good () := by
    rcases hs with rfl | rfl
    · exact judge_ok rfl
    · exact judge_already ()
  unfold State.markReplied
  rw [awaiting_some hcur (by rw [ho]; rfl) hp]; dsimp only
  rw [ho]; dsimp only
  rw [hj]; dsimp only
  unfold State.completeTransaction; dsimp only
  rw [if_neg (by rw [hd]; exact Bool.false_ne_true), ho]
  rfl

/-- Settles O26: a MARK that completes ends its order; one that fails counts it. -/
theorem markReplyEndsTheOrder : Obligations.MarkReplyEndsTheOrder := by
  intro s n t m hcur ho hp hd
  refine ⟨fun x status hx hs => ?_, fun c e o older newer hf hos hom hother => ?_⟩
  · have hr : s.markReplied n (tokenFrame status []) = State.reportMark ((withBusState s n (idleBus (s.bus n) (some 1))).modOrders t.bay
        fun os => os.filter fun o => o.mark != m) x m := by
      rw [markReplied_good hcur ho hp hd hs]
      unfold State.markDone State.reportFor
      rw [show ((withBusState s n (idleBus (s.bus n) (some 1))).modOrders t.bay
        fun os => os.filter fun o => o.mark != m).serialRead t.bay = some x from hx]
    obtain ⟨l, cp, hj⟩ := State.joinSet_only (((withBusState s n (idleBus (s.bus n) (some 1))).modOrders t.bay
        fun os => os.filter fun o => o.mark != m).modEntry x fun e => { e with marks := e.marks.add m }) x
    refine ⟨_, congrArg Host.Outcome.next hr, ?_, ?_, fun y hy => ?_⟩
    · unfold State.reportMark
      rw [hj]
      have : ((s.markOrders t.bay).filter fun o => o.mark != m) = (s.markOrders t.bay).filter fun o => o.mark ≠ m :=
        List.filter_congr fun o _ => by rw [Bool.eq_iff_iff]; simp
      rw [← this]
      rfl
    · unfold State.reportMark
      rw [entry_joinSet]
      exact State.entry_modEntry _ x (fun e => { e with marks := e.marks.add m }) fun _ => rfl
    · unfold State.reportMark
      rw [entry_joinSet]
      exact State.entry_modEntry_ne _ (fun e => { e with marks := e.marks.add m }) (fun _ => rfl) hy
  · refine exec_fails_only hcur hf hd ?_ rfl
    unfold State.deliverFailure
    rw [ho]; dsimp only
    have := failOrder_one m o older newer hom hother
    rw [← hos] at this
    change _ = ({ afterFailure s n t e with orders := s.orders.set t.bay (if o.attempts < 3 then _ else _) } : State)
    rw [← this]
    rfl

end Sys2Proof.Machine
end

section
/-! PROOF. O22: the replies of a challenge exchange. -/

namespace Sys2Proof.Machine

open Sys2Proof.Safety

variable {s w : State} {b : Bay}

/-! ### Replies that succeed (R39, R40) -/

theorem not_rests {op : BusOp} (h : op.kind ≠ .advance ∧ op.kind ≠ .mark) : op.rests = false := by
  rw [← Bool.not_eq_true, rests_iff]
  exact fun k => k.elim h.1 h.2

theorem endTransaction_idle (s : State) (n : Bus) : s.endTransaction n false =
    withBusState s n (idleBus (s.bus n) (s.bus n).restTimer) := rfl

/-- The bay's port once a NONCE-SEND is acknowledged (R39). -/
theorem acknowledgedPort_eq (s : State) (b : Bay) (ms : Nat) : (s.clearFetchCount b).setAnswerTimer b ms =
    withPort s b { s.port b with fetchCount := 0, answerTimer := some ms } := by
  unfold State.clearFetchCount State.setAnswerTimer State.modPort
  simp only [upd_upd]
  rfl

theorem nonceReply_good {n : Bus} {t : Transaction} (hcur : (s.bus n).current = some t) (hk : t.request.op.kind = .nonceSend)
    (hp : t.phase = .acknowledgement) : s.nonceReply n (tokenFrame 0x00#8 []) =
      ((s.clearFetchCount t.bay).startAnswerTimer t.bay).completeTransaction n t fun s =>
        s.modBay t.bay fun r => { r with fetchDue := false } := by
  unfold State.nonceReply
  rw [awaiting_some hcur hk hp]; dsimp only
  rw [judge_ok (a := ()) rfl]

theorem completeTransaction_eq (s : State) (n : Bus) {t : Transaction} (h : t.request.op.rests = false) (f : State → State) :
    s.completeTransaction n t f = if t.discarded = true then withBusState s n (idleBus (s.bus n) (s.bus n).restTimer)
      else f (withBusState s n (idleBus (s.bus n) (s.bus n).restTimer)) := by
  unfold State.completeTransaction; dsimp only
  rw [h, endTransaction_idle]

theorem fetchReply_good {n : Bus} {t : Transaction} {data : List Byte} (hcur : (s.bus n).current = some t)
    (hk : t.request.op.kind = .answerFetch) (hp : t.phase = .fetch) (hd : data.length = 16) :
    s.fetchReply n (tokenFrame 0x00#8 data) =
      (s.clearFetchCount t.bay).completeTransaction n t fun s => s.takeAnswer t.bay (BitVec.ofNat 128 (beNat data)) := by
  unfold State.fetchReply
  rw [awaiting_some hcur hk hp]; dsimp only
  rw [judge_ok (a := BitVec.ofNat 128 (beNat data)) (if_pos hd)]

theorem fetchReply_busy {n : Bus} {t : Transaction} (hcur : (s.bus n).current = some t)
    (hk : t.request.op.kind = .answerFetch) (hp : t.phase = .fetch) (hc : (s.port t.bay).fetchCount < 4) :
    s.fetchReply n (tokenFrame 0x03#8 []) = (s.setAnswerTimer t.bay Config.busyRepeatMs).endTransaction n false := by
  unfold State.fetchReply
  rw [awaiting_some hcur hk hp]; dsimp only
  rw [judge_busy, if_pos rfl]; dsimp only
  rw [if_pos hc, not_rests (by rw [hk]; decide)]

theorem takeAnswer_open {a : BitVec 128} (h : (s.context b).expected = .absent) :
    s.takeAnswer b a = withContext s b { s.context b with tokenAnswer := some a } := by
  unfold State.takeAnswer State.judgeIfComplete
  rw [if_neg]
  · rfl
  · rw [State.context_modContext_same]; simp [h]

/-! ### An exchange that a failure ends (R56 to R60) -/

/-- The exchange is over: its context is closed, its job has left the engine, and no fetch is due (R56, R57). -/
def endedExchange (s : State) (b : Bay) : State := { s with
  bays := upd s.bays b fun r => { r with fetchDue := false }
  digest := { s.digest.dropJob b with contexts := s.digest.contexts.set b Context.closed } }

theorem endedExchange_eq (s : State) (b : Bay) (f : Context → Context) :
    (((s.modContext b f).closeContext b).modDigest fun d => d.dropJob b).modBay b (fun r => { r with fetchDue := false }) =
      endedExchange s b := by
  have h : upd (upd s.digest.contexts b f) b (fun _ => Context.closed) = s.digest.contexts.set b Context.closed :=
    (upd_upd _ _ _ _).trans rfl
  unfold State.closeContext State.modContext State.modDigest State.modBay endedExchange
  dsimp only
  rw [← h]; rfl

/-- The outcome of an exchange that a failure ended (R58, R59, R60). -/
theorem judgeExchange_failed {k : SlotNo} {f : Context → Context} (hf : ∀ c, (f c).kind = c.kind ∧ (f c).slot = c.slot ∧
      (f c).expected = c.expected ∧ (f c).endCause ≠ .none) (hkind : (s.context b).kind.isSome = true)
    (hslot : (s.context b).slot = some k) : (s.modContext b f).judgeExchange b =
      if (s.slot k).state = .enabled ∧ (s.context b).expected ≠ .withheld then
        (if ((endedExchange s b).bay b).commFailures < 2 then
          (endedExchange s b).modBay b fun r => { r with commFailures := r.commFailures + 1 }
        else ((endedExchange s b).modBay b fun r => { r with commFailures := r.commFailures + 1 }).faultBay b)
      else (endedExchange s b).rejectBay b .unknownIssuer := by
  obtain ⟨h1, h2, h3, h4⟩ := hf (s.context b)
  have henabled : (s.modContext b f).slotEnabled (f (s.context b)).slot = decide ((s.slot k).state = .enabled) := by
    rw [h2, hslot]; rfl
  have hcom : ∀ z : State, (if ((z.modBay b fun r => { r with commFailures := r.commFailures + 1 }).bay b).commFailures < 3 then
        z.modBay b fun r => { r with commFailures := r.commFailures + 1 }
      else (z.modBay b fun r => { r with commFailures := r.commFailures + 1 }).faultBay b) =
      if (z.bay b).commFailures < 2 then z.modBay b fun r => { r with commFailures := r.commFailures + 1 }
      else (z.modBay b fun r => { r with commFailures := r.commFailures + 1 }).faultBay b := fun z => by
    refine if_congr ?_ rfl rfl
    rw [State.bay_modBay_same]; exact Nat.succ_lt_succ_iff
  obtain ⟨kind, hk⟩ := Option.isSome_iff_exists.1 hkind
  unfold State.judgeExchange; dsimp only
  rw [State.context_modContext_same, endedExchange_eq, henabled, h1, hk]
  by_cases hc : (s.slot k).state = .enabled ∧ (s.context b).expected ≠ .withheld
  · have hj : (f (s.context b)).judge (decide ((s.slot k).state = .enabled)) = .communication := by
      unfold Context.judge
      rw [if_neg (by rw [h3]; simp [hc.1, hc.2]), if_pos (bne_iff_ne.2 h4)]
    rw [if_pos hc, hj]
    cases kind <;> exact hcom (endedExchange s b)
  · have hj : (f (s.context b)).judge (decide ((s.slot k).state = .enabled)) = .noLongerEnabled := by
      unfold Context.judge
      rw [if_pos]
      rw [not_and_or, not_not] at hc
      rw [h3]
      rcases hc with hc | hc <;> simp [hc]
    rw [if_neg hc, hj]
    cases kind <;> rfl

/-- The failure of a NONCE-SEND or of an ANSWER-FETCH ends the exchange (R45). -/
theorem deliverFailure_challenge {t : Transaction} {k : SlotNo}
    (ht : t.request.op.kind = .nonceSend ∨ t.request.op.kind = .answerFetch)
    (hkind : (s.context t.bay).kind.isSome = true) (hslot : (s.context t.bay).slot = some k) : s.deliverFailure t =
      if (s.slot k).state = .enabled ∧ (s.context t.bay).expected ≠ .withheld then
        (if ((endedExchange s t.bay).bay t.bay).commFailures < 2 then
          (endedExchange s t.bay).modBay t.bay fun r => { r with commFailures := r.commFailures + 1 }
        else ((endedExchange s t.bay).modBay t.bay fun r => { r with commFailures := r.commFailures + 1 }).faultBay t.bay)
      else (endedExchange s t.bay).rejectBay t.bay .unknownIssuer := by
  rcases ht with ht | ht
  · obtain ⟨a, c, ho⟩ := kind_eq_nonceSend ht
    unfold State.deliverFailure
    rw [ho]
    exact judgeExchange_failed (fun c => ⟨rfl, rfl, rfl, fun h => nomatch h⟩) hkind hslot
  · obtain ⟨a, ho⟩ := kind_eq_answerFetch ht
    unfold State.deliverFailure
    rw [ho]
    exact judgeExchange_failed (fun c => ⟨rfl, rfl, rfl, fun h => nomatch h⟩) hkind hslot

/-- A bay that leaves after its exchange is over leaves the digest as it was. -/
theorem leaveTo_digest_ended (s : State) (b : Bay) (f : BayRec → BayRec) (t : BayState) (r : RejectReason) :
    (((endedExchange s b).modBay b f).leaveTo b t r).digest = (endedExchange s b).digest := by
  rw [leaveTo_eq]
  have h1 : upd (s.digest.contexts.set b Context.closed) b (fun _ => Context.closed) = s.digest.contexts.set b Context.closed :=
    (upd_upd s.digest.contexts b (fun _ => Context.closed) _).trans rfl
  have h2 : (s.digest.dropJob b).dropJob b = s.digest.dropJob b := by
    unfold Digest.dropJob
    dsimp only
    rw [List.filter_filter]
    cases s.digest.computing with
    | none => simp
    | some c =>
      simp only [Bool.and_self, Option.map_some]
      by_cases hc : c.bay = b <;> simp [hc]
  change ({ (({ s.digest.dropJob b with contexts := s.digest.contexts.set b Context.closed } : Digest).dropJob b) with
    contexts := upd (s.digest.contexts.set b Context.closed) b fun _ => Context.closed } : Digest) = _
  rw [h1]
  change ({ (s.digest.dropJob b).dropJob b with contexts := s.digest.contexts.set b Context.closed } : Digest) = _
  rw [h2]; rfl

theorem faultBay_digest (s : State) (b : Bay) : (s.faultBay b).digest = (s.leaveTo b .faulted .none).digest := by
  obtain ⟨l, q, h⟩ := State.settleWaits_only ((s.leaveTo b .faulted .none).raise .bayFaulted b) b failedEnding
  unfold State.faultBay
  rw [h]; rfl

theorem rejectBay_digest (s : State) (b : Bay) (r : RejectReason) : (s.rejectBay b r).digest = (s.leaveTo b .rejected r).digest := by
  obtain ⟨l, q, h⟩ := State.settleWaits_only (((s.leaveTo b .rejected r).closeWithLiability b).raise r.notice b) b failedEnding
  obtain ⟨a, t, v, l', q', j, c, h', -⟩ := (s.leaveTo b .rejected r).closeWithLiability_only b
  unfold State.rejectBay
  rw [h, h']; rfl

theorem serialRead_congr {s w : State} (h : ∀ c, (w.bay c).identityPage = (s.bay c).identityPage) (c : Bay) :
    w.serialRead c = s.serialRead c := by
  unfold State.serialRead
  rw [h c]

theorem endedExchange_bay (s : State) (b : Bay) : (endedExchange s b).bay b = { s.bay b with fetchDue := false } :=
  upd_get_same s.bays b fun r => { r with fetchDue := false }

theorem endedExchange_serialRead (s : State) (b c : Bay) : (endedExchange s b).serialRead c = s.serialRead c := by
  refine serialRead_congr (fun d => ?_) c
  by_cases hd : d = b
  · rw [hd, endedExchange_bay]
  · exact congrArg BayRec.identityPage (upd_get_ne s.bays (fun r => { r with fetchDue := false }) hd)

/-- Settles O22: acknowledgements and answers by their branches; a failure by the judgment of the exchange it ends. -/
theorem challengeRepliesAdvanceTheExchange : Obligations.ChallengeRepliesAdvanceTheExchange := by
  refine ⟨fun s n t hcur hk hp => ?_, fun s n t hcur hk hp => ⟨fun hc => ?_, fun data hdata => ⟨fun hd => ?_, fun hd he => ?_⟩⟩,
    fun s n t c e k hcur hn hf hk hd hkind hslot => ⟨fun hs he => ⟨fun hc => ?_, fun hc => ?_⟩, fun h => ?_⟩⟩
  · have hr := not_rests (op := t.request.op) (by rw [hk]; decide)
    have hx := nonceReply_good hcur hk hp
    intro timed after
    have hexec : ∀ u : State, s.nonceReply n (tokenFrame 0x00#8 []) = u → u.link = s.link →
        exec (.nonceSendAcknowledgement n (tokenFrame 0x00#8 [])) s = .next u := fun u hu hl =>
      congrArg Host.Outcome.next (together_silent (f := fun s => s.nonceReply n _) hu hl)
    have hlink : ∀ ms, (after ms).link = s.link := fun ms => by
      change (if t.discarded = true then timed ms else _).link = _
      split <;> rfl
    refine ⟨fun c hc => hexec _ ?_ (hlink _), fun hc => ⟨clampNat 2 60 (Config.lostComputeTime s.free), ?_, ?_, hexec _ ?_ (hlink _)⟩⟩
    · rw [hx]
      have htimer : (s.clearFetchCount t.bay).startAnswerTimer t.bay = withPort s t.bay { s.port t.bay with
          fetchCount := 0, answerTimer := some (max 2 (min 60 c.computeTime)) } := by
        unfold State.startAnswerTimer
        rw [show ((s.clearFetchCount t.bay).bay t.bay).calibrationPage = some c from hc]
        exact acknowledgedPort_eq s t.bay _
      rw [htimer, completeTransaction_eq _ _ hr]
      rfl
    · exact Nat.le_max_left _ _
    · exact Nat.max_le.2 ⟨by decide, Nat.min_le_left _ _⟩
    · rw [hx]
      have htimer : (s.clearFetchCount t.bay).startAnswerTimer t.bay = { withPort s t.bay { s.port t.bay with
          fetchCount := 0, answerTimer := some (clampNat 2 60 (Config.lostComputeTime s.free)) } with free := s.free + 1 } := by
        unfold State.startAnswerTimer
        rw [show ((s.clearFetchCount t.bay).bay t.bay).calibrationPage = none from hc]
        dsimp only
        rw [← acknowledgedPort_eq]
        rfl
      rw [htimer, completeTransaction_eq _ _ hr]
      change _ = ({ (if t.discarded = true then timed _ else withBayRec (timed _) t.bay _) with free := s.free + 1 } : State)
      split <;> rfl
  · exact congrArg Host.Outcome.next (together_silent (f := fun s => s.fetchReply n _) (fetchReply_busy hcur hk hp hc) rfl)
  · refine congrArg Host.Outcome.next (together_silent (f := fun s => s.fetchReply n _) ((fetchReply_good hcur hk hp hdata).trans ?_) rfl)
    rw [completeTransaction_eq _ _ (not_rests (by rw [hk]; decide)), if_pos hd]
    rfl
  · refine congrArg Host.Outcome.next (together_silent (f := fun s => s.fetchReply n _) ((fetchReply_good hcur hk hp hdata).trans ?_) rfl)
    rw [completeTransaction_eq _ _ (not_rests (by rw [hk]; decide)), if_neg (by rw [hd]; exact Bool.false_ne_true)]
    rw [takeAnswer_open (by exact he)]
    rfl
  · have hdel := deliverFailure_challenge (s := afterFailure s n t e) hk hkind hslot
    rw [if_pos ⟨hs, he⟩, if_pos (by rw [endedExchange_bay]; exact hc)] at hdel
    refine exec_fails_only hcur hf hd hdel ?_ |>.trans (congrArg Host.Outcome.next ?_)
    · rfl
    · have hb : upd (upd s.bays t.bay fun r => { r with fetchDue := false }) t.bay (fun r => { r with commFailures := r.commFailures + 1 }) =
          s.bays.set t.bay { s.bay t.bay with commFailures := (s.bay t.bay).commFailures + 1, fetchDue := false } :=
        (upd_upd _ _ _ _).trans rfl
      unfold State.modBay endedExchange
      dsimp only
      change ({ endedExchange (afterFailure s n t e) t.bay with bays := upd (upd s.bays t.bay _) t.bay _ } : State) = _
      rw [hb]
      rfl
  · have hdel := deliverFailure_challenge (s := afterFailure s n t e) hk hkind hslot
    rw [if_pos ⟨hs, he⟩, if_neg (by rw [endedExchange_bay]; exact Nat.not_lt.2 hc)] at hdel
    obtain ⟨v, hv⟩ : ∃ v, v = (endedExchange (afterFailure s n t e) t.bay).modBay t.bay fun r =>
      { r with commFailures := r.commFailures + 1 } := ⟨_, rfl⟩
    have hdig : (v.faultBay t.bay).digest = (endedExchange (afterFailure s n t e) t.bay).digest := by
      rw [faultBay_digest, hv, leaveTo_digest_ended]
    have hvb : v.bay t.bay = { s.bay t.bay with commFailures := (s.bay t.bay).commFailures + 1, fetchDue := false } := by
      rw [hv, State.bay_modBay_same, endedExchange_bay]; rfl
    rw [← hv] at hdel
    obtain ⟨p, u, jobs, comp, l, q, h, -⟩ := v.faultBay_only t.bay
    have hrb : (v.faultBay t.bay).bay t.bay = { v.bay t.bay with
        fetchDue := false, state := .faulted, rejectReason := .none, rechallenge := .idle, rechallengeTimer := none } := by
      rw [h]; exact upd_get_same _ _ _
    refine ⟨_, exec_fails_told hcur hf hd, faultsBay_together hdel (fun d hd => ?_) (by rw [hv]; rfl)
      (by rw [hv]; rfl) (by rw [hv]; rfl), ?_, ?_, ?_, ?_, ?_⟩
    · rw [hv, State.bay_modBay, if_neg hd]
      exact upd_get_ne s.bays (fun r => { r with fetchDue := false }) hd
    · rw [State.bay_together, hdel, hrb, hvb]
    · rw [State.together_digest, hdel, hdig]; rfl
    · rw [State.together_accounts, hdel, h, hv]; rfl
    · rw [State.together_refill, hdel, h, hv]; rfl
    · rw [State.together_journal, hdel, h, hv]; rfl
  · have hdel := deliverFailure_challenge (s := afterFailure s n t e) hk hkind hslot
    rw [if_neg (by
      rintro ⟨h1, h2⟩
      exact h.elim (fun k => k h1) h2)] at hdel
    have hdig : ((endedExchange (afterFailure s n t e) t.bay).rejectBay t.bay .unknownIssuer).digest =
        (endedExchange (afterFailure s n t e) t.bay).digest := by
      have := leaveTo_digest_ended (afterFailure s n t e) t.bay id .rejected .unknownIssuer
      rw [rejectBay_digest]
      rw [show (endedExchange (afterFailure s n t e) t.bay).modBay t.bay id = endedExchange (afterFailure s n t e) t.bay by
        unfold State.modBay; rw [upd_id _ _ _ rfl]] at this
      exact this
    obtain ⟨p, u, jobs, comp, a, g, v, l, q, j, cp, h', -⟩ :=
      (endedExchange (afterFailure s n t e) t.bay).rejectBay_only t.bay .unknownIssuer
    refine ⟨_, exec_fails_told hcur hf hd, rejectsBay_together hdel rfl (fun d hd => ?_) (endedExchange_serialRead _ _) rfl rfl rfl, ?_, ?_⟩
    · exact upd_get_ne s.bays (fun r => { r with fetchDue := false }) hd
    · rw [State.bay_together, hdel, h']
      refine (congrArg BayRec.commFailures (upd_get_same (endedExchange (afterFailure s n t e) t.bay).bays t.bay _)).trans ?_
      have hcount := congrArg BayRec.commFailures (endedExchange_bay (afterFailure s n t e) t.bay)
      exact hcount
    · rw [State.together_digest, hdel, hdig]; rfl

end Sys2Proof.Machine
end

section
/-! PROOF. The success of a commit (R96, R101, R134). -/

namespace Sys2Proof.Machine

open Sys2Proof.Safety

variable {s w x y : State} {b : Bay} {n : Bus}

/-! ### An idle bus stays (R31, R61) -/

/-- Bus `n`, if idle in `w`, is in `x` as it was. -/
def busStays (n : Bus) (w x : State) : Prop := (w.bus n).current = none → x.bus n = w.bus n

theorem busStays.same (h : x.buses = w.buses) : busStays n w x := fun _ => by unfold State.bus; rw [h]

theorem busStays.trans (h : busStays n w x) (k : busStays n x y) : busStays n w y := fun hc => by
  have h1 := h hc
  exact (k (by rw [h1]; exact hc)).trans h1

theorem endedBus_idle {u : BusState} (h : u.current = none) : endedBus b u = u := by
  unfold endedBus
  cases u
  cases h; rfl

theorem leaveTo_busStays (s : State) (b : Bay) (t : BayState) (r : RejectReason) : busStays n s (s.leaveTo b t r) := fun hc => by
  rw [leaveTo_eq]
  change (upd s.buses (busOf b) (endedBus b))[n] = s.buses[n]
  by_cases hn : n = busOf b
  · subst hn
    rw [upd_get_same]; exact endedBus_idle hc
  · exact upd_get_ne _ _ hn

theorem settleWaits_busStays (s : State) (b : Bay) (e : Ending) : busStays n s (s.settleWaits b e) := by
  obtain ⟨l, q, h⟩ := s.settleWaits_only b e
  exact .same (by rw [h])

theorem faultBay_busStays (s : State) (b : Bay) : busStays n s (s.faultBay b) :=
  (leaveTo_busStays s b .faulted .none).trans ((busStays.same rfl).trans
    (settleWaits_busStays ((s.leaveTo b .faulted .none).raise .bayFaulted b) b failedEnding))

theorem closeWithLiability_buses (s : State) (b : Bay) : (s.closeWithLiability b).buses = s.buses := by
  obtain ⟨a, t, v, l, q, j, c, h, -⟩ := s.closeWithLiability_only b
  rw [h]

theorem rejectBay_busStays (s : State) (b : Bay) (r : RejectReason) : busStays n s (s.rejectBay b r) :=
  (leaveTo_busStays s b .rejected r).trans ((busStays.same (closeWithLiability_buses _ b)).trans ((busStays.same rfl).trans
    (settleWaits_busStays (((s.leaveTo b .rejected r).closeWithLiability b).raise r.notice b) b failedEnding)))

theorem raiseIf_buses (s : State) (p : Bool) (k : NoticeKind) (b : Bay) : (s.raiseIf p k b).buses = s.buses := by
  obtain ⟨v, h⟩ := raiseIf_fields s p k b
  rw [h]

theorem closeDrained_busStays (s : State) (b : Bay) : busStays n s (s.closeDrained b) := by
  unfold State.closeDrained
  rw [enterReleased_eq]
  have hclosed : busStays n s (s.closeEmpty b) := by
    obtain ⟨j, c, h⟩ := s.closeEmpty_only b
    exact .same (by rw [h])
  have hreleased : busStays n (s.closeEmpty b) (releasedState (s.closeEmpty b) b) :=
    (leaveTo_busStays _ b .released .none).trans (.same rfl)
  exact hclosed.trans (hreleased.trans (settleWaits_busStays _ b _))

theorem applyQuanta_buses (s : State) (b : Bay) (k : Nat) : (s.applyQuanta b k).buses = s.buses := by
  obtain ⟨m, d, w, v, l, q, h, -⟩ := s.applyQuanta_only b k
  rw [h]

theorem roundRelease_busStays (s : State) (b : Bay) : busStays n s (s.roundRelease b) := by
  unfold State.roundRelease; dsimp only
  split
  · refine .trans (.same (x := (s.setResidue b 0).applyQuanta b 1) (applyQuanta_buses _ b 1)) ?_
    split
    · exact closeDrained_busStays _ b
    · exact .same rfl
  · split
    · exact closeDrained_busStays _ b
    · exact .same rfl

theorem pendingDrained_busStays (s : State) (b : Bay) : busStays n s (s.pendingDrained b) := by
  unfold State.pendingDrained; dsimp only
  refine .trans (x := (s.modAccount b fun a => { a with drain := { a.drain with flush := false } }).settleWaits b
    { flush := some .drained }) ?_ ?_
  · exact settleWaits_busStays (s.modAccount b fun a => { a with drain := { a.drain with flush := false } }) b _
  · split
    · exact roundRelease_busStays _ b
    · exact .same rfl

/-! ### What a success leaves, before pending is looked at (R96, R101, R134) -/

/-- The account of a commit that has succeeded. -/
def Account.landed (a : Account) : Account :=
  { a with committed := a.target, pending := a.pending - a.inFlight, inFlight := 0, commitState := .idle, failures := 0 }

/-- A commit that has succeeded, its drains not yet completed. -/
def commitLanded (s : State) (b : Bay) : State :=
  let s1 := (s.modAccount b Account.landed).reportFor b fun w x => w.reportCounter x (s.account b).target
  if (s1.account b).committed = (s1.account b).capacity then s1.usedUp b else s1

theorem commitSuccess_eq (s : State) (b : Bay) : s.commitSuccess b = s.allowanceChecked b fun s =>
    if ((commitLanded s b).account b).pending = 0 then (commitLanded s b).pendingDrained b else commitLanded s b := rfl

/-- A report to an entry changes the table and the append set. -/
theorem report_only {z : Serial} {f : HistoryEntry → HistoryEntry} (s : State) : ∃ j c, (s.modEntry z f).joinSet z = { s with
    refill := { s.refill with table := s.refill.table.map fun e => if e.serial = z then f e else e }
    journal := { s.journal with appendSet := j, copyStale := c } } := by
  obtain ⟨j, c, h⟩ := (s.modEntry z f).joinSet_only z
  exact ⟨j, c, h⟩

theorem reportFor_only {f : HistoryEntry → HistoryEntry} (s : State) (b : Bay) : ∃ g j c,
    (s.reportFor b fun w x => (w.modEntry x f).joinSet x) = { s with
      refill := { s.refill with table := g }, journal := { s.journal with appendSet := j, copyStale := c } } := by
  unfold State.reportFor
  split
  · rename_i z _
    obtain ⟨j, c, h⟩ := report_only (z := z) (f := f) s
    exact ⟨_, j, c, h⟩
  · exact ⟨_, _, _, rfl⟩

theorem reportFor_entry {f : HistoryEntry → HistoryEntry} {z : Serial} (h : s.serialRead b = some z)
    (hf : ∀ e, (f e).serial = e.serial) : (s.reportFor b fun w x => (w.modEntry x f).joinSet x).entry z = (s.entry z).map f := by
  unfold State.reportFor
  rw [h]; dsimp only
  rw [entry_joinSet]
  exact State.entry_modEntry s z f hf

/-- The counter's report after a success. -/
def counterReported (s : State) (b : Bay) : State :=
  (s.modAccount b Account.landed).reportFor b fun w x => (w.modEntry x fun e => { e with
    highWater := max e.highWater (s.account b).target }).joinSet x

theorem counterReported_only (s : State) (b : Bay) : ∃ g j c, counterReported s b = { s with
    accounts := upd s.accounts b Account.landed
    refill := { s.refill with table := g }, journal := { s.journal with appendSet := j, copyStale := c } } :=
  reportFor_only (s.modAccount b Account.landed) b

theorem counterReported_account (s : State) (b : Bay) : (counterReported s b).account b = (s.account b).landed := by
  obtain ⟨g, j, c, h⟩ := counterReported_only s b
  rw [h]; exact upd_get_same _ _ _

theorem commitLanded_eq (s : State) (b : Bay) : commitLanded s b =
    if (s.account b).target = (s.account b).capacity then (counterReported s b).usedUp b else counterReported s b := by
  unfold commitLanded
  change (if ((counterReported s b).account b).committed = ((counterReported s b).account b).capacity then _ else _) = _
  rw [counterReported_account]
  rfl

theorem usedUp_eq (s : State) (b : Bay) : s.usedUp b = State.raise ((s.orderMark b .spent).reportFor b fun w x =>
    (w.modEntry x fun e => { e with retired := true }).joinSet x) .spent b := rfl

/-- What a success leaves, by field (R96, R101, R134). -/
theorem commitLanded_only (s : State) (b : Bay) : ∃ g j c, commitLanded s b = { s with
      accounts := upd s.accounts b Account.landed
      refill := { s.refill with table := g }, journal := { s.journal with appendSet := j, copyStale := c }
      orders := if (s.account b).target = (s.account b).capacity then upd s.orders b (placeOrder .spent) else s.orders
      notice := if (s.account b).target = (s.account b).capacity then
        { s.notice with sources := s.notice.sources.set NoticeKind.spent.index (joined (s.source .spent) b) } else s.notice } := by
  obtain ⟨g, j, c, h⟩ := counterReported_only s b
  rw [commitLanded_eq]
  by_cases hc : (s.account b).target = (s.account b).capacity
  · obtain ⟨g', j', c', h'⟩ := reportFor_only (f := fun e => { e with retired := true }) ((counterReported s b).orderMark b .spent) b
    rw [if_pos hc, if_pos hc, if_pos hc, usedUp_eq, h', h]
    exact ⟨g', j', c', rfl⟩
  · rw [if_neg hc, if_neg hc, if_neg hc]
    exact ⟨g, j, c, h⟩

/-- R134: the high-water reaches the target, and a used-up cartridge's entry is retired. -/
theorem commitLanded_entry {z : Serial} (hz : s.serialRead b = some z) : (commitLanded s b).entry z = (s.entry z).map fun e =>
    { e with
      highWater := max e.highWater (s.account b).target
      retired := e.retired || decide ((s.account b).target = (s.account b).capacity) } := by
  have h1 : (counterReported s b).entry z = (s.entry z).map fun e => { e with highWater := max e.highWater (s.account b).target } :=
    reportFor_entry (s := s.modAccount b Account.landed) hz fun _ => rfl
  rw [commitLanded_eq]
  by_cases hc : (s.account b).target = (s.account b).capacity
  · have hz' : ((counterReported s b).orderMark b .spent).serialRead b = some z := by
      obtain ⟨g, j, c, h⟩ := counterReported_only s b
      rw [h]; exact hz
    have h2 : (((counterReported s b).orderMark b .spent).reportFor b fun w x =>
        (w.modEntry x fun e => { e with retired := true }).joinSet x).entry z =
        ((counterReported s b).entry z).map fun e => { e with retired := true } :=
      reportFor_entry hz' fun _ => rfl
    rw [if_pos hc, usedUp_eq]
    refine h2.trans ?_
    rw [h1, Option.map_map]
    refine congrArg (fun f => Option.map f (s.entry z)) (funext fun e => ?_)
    simp [hc]
  · rw [if_neg hc, h1]
    refine congrArg (fun f => Option.map f (s.entry z)) (funext fun e => ?_)
    simp [hc]

theorem commitLanded_account (s : State) (b : Bay) : (commitLanded s b).account b = (s.account b).landed := by
  obtain ⟨g, j, c, h⟩ := commitLanded_only s b
  rw [h]; exact upd_get_same _ _ _

theorem commitLanded_buses (s : State) (b : Bay) : (commitLanded s b).buses = s.buses := by
  obtain ⟨g, j, c, h⟩ := commitLanded_only s b
  rw [h]

theorem commitSuccess_busStays (s : State) (b : Bay) : busStays n s (s.commitSuccess b) := by
  rw [commitSuccess_eq]
  unfold State.allowanceChecked; dsimp only
  refine .trans (x := commitLanded s b) (.same (commitLanded_buses s b)) ?_
  split
  · exact (pendingDrained_busStays _ b).trans (.same (raiseIf_buses _ _ _ _))
  · exact .same (raiseIf_buses _ _ _ _)

/-- A success with quanta still pending (R96). -/
theorem commitSuccess_more (h : (s.account b).inFlight < (s.account b).pending) : ∃ v, s.commitSuccess b =
    { commitLanded s b with notice := { (commitLanded s b).notice with sources := v } } ∧
    ∀ k : NoticeKind, k ≠ .allowanceExhausted → v[k.index] = (commitLanded s b).source k := by
  have hp : ((commitLanded s b).account b).pending ≠ 0 := by
    rw [commitLanded_account]
    exact Nat.sub_ne_zero_of_lt h
  rw [commitSuccess_eq]
  unfold State.allowanceChecked; dsimp only
  rw [if_neg hp]
  obtain ⟨v, hv⟩ := raiseIf_fields (commitLanded s b) (((commitLanded s b).bay b).state = .admitted && decide (0 < s.allowance b) &&
    (commitLanded s b).allowance b = 0) .allowanceExhausted b
  refine ⟨v, hv, fun k hk => ?_⟩
  have := source_raiseIf (commitLanded s b) (((commitLanded s b).bay b).state = .admitted && decide (0 < s.allowance b) &&
    (commitLanded s b).allowance b = 0) .allowanceExhausted k b
  rw [hv, if_neg fun h => hk h.1] at this
  exact this

end Sys2Proof.Machine
end

section
/-! PROOF. O27: a CHECK-READ resolves a commit in doubt (R44, R99, R100). -/

namespace Sys2Proof.Machine

open Sys2Proof.Safety

variable {s : State} {b : Bay} {n : Bus}

theorem counterData_leBytes {c : Nat} (h : c < 65536) : counterData (leBytes 2 c) = some c := by
  have : leNat (leBytes 2 c) = c := leNat_leBytes_of_lt h
  unfold counterData
  rw [if_pos (show (leBytes 2 c).length = 2 from rfl), this]

/-- The bus with its transaction ended, no rest following. -/
def releasedBus (s : State) (n : Bus) : State := withBusState s n (idleBus (s.bus n) (s.bus n).restTimer)

theorem releasedBus_bus (s : State) (n : Bus) : (releasedBus s n).bus n = idleBus (s.bus n) (s.bus n).restTimer :=
  upd_get_same s.buses n fun u => idleBus u u.restTimer

theorem checkReplied_good {t : Transaction} {index c : Nat} (hcur : (s.bus n).current = some t)
    (ho : t.request.op = .checkRead index) (hp : t.phase = .reply) (hd : t.discarded = false)
    (hl : (s.account t.bay).live = true) (hcs : (s.account t.bay).commitState = .check) (hc : c < 65536) :
    s.checkReplied n (tokenFrame 0x00#8 (leBytes 2 c)) = (releasedBus s n).resolveCheck t.bay c := by
  unfold State.checkReplied
  rw [awaiting_some hcur (by rw [ho]; rfl) hp]; dsimp only
  rw [judge_ok (counterData_leBytes hc)]; dsimp only
  rw [completeTransaction_eq _ _ (by rw [ho]; rfl), if_neg (by rw [hd]; exact Bool.false_ne_true)]
  unfold State.checkDone
  rw [if_pos (by
    unfold State.awaitsCheck
    rw [show ((withBusState s n (idleBus (s.bus n) (s.bus n).restTimer)).account t.bay) = s.account t.bay from rfl, hl, hcs]
    rfl)]
  rfl

/-- What a landing in part leaves, the failure not yet counted (R99). -/
def partLanded (s : State) (b : Bay) (c : Nat) : State :=
  (s.modAccount b fun a => { a with committed := c, pending := a.pending - (c - a.committed) }).reportFor b fun w x =>
    (w.modEntry x fun e => { e with highWater := max e.highWater c }).joinSet x

theorem commitPartly_eq (s : State) (b : Bay) (c : Nat) :
    s.commitPartly b c = s.allowanceChecked b fun s => (partLanded s b c).countFailure b := rfl

theorem partLanded_only (s : State) (b : Bay) (c : Nat) : ∃ g j cp, partLanded s b c = { s with
    accounts := upd s.accounts b fun a => { a with committed := c, pending := a.pending - (c - a.committed) }
    refill := { s.refill with table := g }, journal := { s.journal with appendSet := j, copyStale := cp } } :=
  reportFor_only (s.modAccount b fun a => { a with committed := c, pending := a.pending - (c - a.committed) }) b

theorem partLanded_account (s : State) (b : Bay) (c : Nat) : (partLanded s b c).account b =
    { s.account b with committed := c, pending := (s.account b).pending - (c - (s.account b).committed) } := by
  obtain ⟨g, j, cp, h⟩ := partLanded_only s b c
  rw [h]; exact upd_get_same _ _ _

/-- The state of a rollback, the bay not yet REJECTED (R99). -/
def rollbackRead (s : State) (b : Bay) (c : Nat) : State := s.reportFor b fun w x =>
  (w.modEntry x fun e => { e with highWater := max e.highWater c }).joinSet x

theorem commitRollback_eq (s : State) (b : Bay) (c : Nat) : s.commitRollback b c = (rollbackRead s b c).rejectBay b .rollback := rfl

theorem rollbackRead_only (s : State) (b : Bay) (c : Nat) : ∃ g j cp, rollbackRead s b c = { s with
    refill := { s.refill with table := g }, journal := { s.journal with appendSet := j, copyStale := cp } } :=
  reportFor_only s b

theorem countFailure_busStays (s : State) (b : Bay) : busStays n s (s.countFailure b) := by
  by_cases h : (s.account b).failures < 2
  · rw [countFailure_below h]; exact .same rfl
  · rw [countFailure_third (Nat.not_lt.1 h)]
    exact .trans (.same (x := withAccount s b (s.account b).counted) rfl) (faultBay_busStays _ b)

theorem allowanceChecked_busStays {f : State → State} (h : busStays n s (f s)) : busStays n s (s.allowanceChecked b f) :=
  h.trans (.same (raiseIf_buses _ _ _ _))

theorem resolveCheck_busStays (s : State) (b : Bay) (c : Nat) : busStays n s (s.resolveCheck b c) := by
  unfold State.resolveCheck; dsimp only
  split
  · exact commitSuccess_busStays s b
  · split
    · exact allowanceChecked_busStays (countFailure_busStays s b)
    · split
      · rw [commitPartly_eq]
        refine allowanceChecked_busStays ?_
        refine .trans (.same ?_) (countFailure_busStays (partLanded s b c) b)
        obtain ⟨g, j, cp, h⟩ := partLanded_only s b c
        rw [h]
      · rw [commitRollback_eq]
        refine .trans (.same ?_) (rejectBay_busStays (rollbackRead s b c) b .rollback)
        obtain ⟨g, j, cp, h⟩ := rollbackRead_only s b c
        rw [h]

/-- A counted failure: the account, and what follows below the third and at it (R97). -/
theorem countFailure_account (s : State) (b : Bay) : (s.countFailure b).account b = (s.account b).counted := by
  by_cases h : (s.account b).failures < 2
  · rw [countFailure_below h]
    exact upd_get_same s.accounts b Account.counted
  · rw [countFailure_third (Nat.not_lt.1 h)]
    obtain ⟨p, u, jobs, comp, l, q, h, -⟩ := (withAccount s b (s.account b).counted).faultBay_only b
    rw [h]
    exact upd_get_same s.accounts b Account.counted

/-- A landing in part whose failure is the third. -/
theorem commitPartly_third {c : Nat} (h : 2 ≤ (s.account b).failures) : s.commitPartly b c =
    (withAccount (partLanded s b c) b ((partLanded s b c).account b).counted).faultBay b := by
  have hc : (partLanded s b c).countFailure b =
      (withAccount (partLanded s b c) b ((partLanded s b c).account b).counted).faultBay b :=
    countFailure_third (by rw [partLanded_account]; exact h)
  rw [commitPartly_eq, allowanceChecked_same (.inr ?_)]
  · exact hc
  · rw [hc, faultBay_state]; decide

/-- A landing in part whose failure is below the third. -/
theorem commitPartly_below {c : Nat} (h : (s.account b).failures < 2) : ∃ v, s.commitPartly b c =
    { (partLanded s b c).countFailure b with notice := { s.notice with sources := v } } ∧
      v[NoticeKind.commitRetry.index] = joined (s.source .commitRetry) b := by
  have hc := countFailure_below (s := partLanded s b c) (b := b) (by rw [partLanded_account]; exact h)
  obtain ⟨g, j, cp, hp⟩ := partLanded_only s b c
  have hsource : ((partLanded s b c).countFailure b).source .commitRetry = joined (s.source .commitRetry) b := by
    rw [hc]
    refine (upd_get_same (partLanded s b c).notice.sources NoticeKind.commitRetry.index fun x => joined x b).trans ?_
    rw [hp]; rfl
  rw [commitPartly_eq]
  unfold State.allowanceChecked; dsimp only
  obtain ⟨v, hv⟩ := raiseIf_fields ((partLanded s b c).countFailure b) ((((partLanded s b c).countFailure b).bay b).state = .admitted &&
    decide (0 < s.allowance b) && ((partLanded s b c).countFailure b).allowance b = 0) .allowanceExhausted b
  have hk := source_raiseIf ((partLanded s b c).countFailure b) ((((partLanded s b c).countFailure b).bay b).state = .admitted &&
    decide (0 < s.allowance b) && ((partLanded s b c).countFailure b).allowance b = 0) .allowanceExhausted .commitRetry b
  rw [hv, if_neg fun h => nomatch h.1] at hk
  refine ⟨v, ?_, hk.trans hsource⟩
  rw [hv, hc, hp]
  rfl

theorem commitPartly_account (s : State) (b : Bay) (c : Nat) : (s.commitPartly b c).account b =
    ({ s.account b with committed := c, pending := (s.account b).pending - (c - (s.account b).committed) } : Account).counted := by
  rw [← partLanded_account, ← countFailure_account, commitPartly_eq]
  unfold State.allowanceChecked; dsimp only
  obtain ⟨v, hv⟩ := raiseIf_fields ((partLanded s b c).countFailure b) ((((partLanded s b c).countFailure b).bay b).state = .admitted &&
    decide (0 < s.allowance b) && ((partLanded s b c).countFailure b).allowance b = 0) .allowanceExhausted b
  rw [hv]; rfl

/-- Settles O27: each row of R99 by the branch of the resolution it names; a failing read faults the bay. -/
theorem checkReadResolvesTheDoubt : Obligations.CheckReadResolvesTheDoubt := by
  intro s n t index hcur ho hp hd hlive hcs
  refine ⟨fun c hc => ?_, fun c e hn hf => ?_⟩
  · intro a counted
    have hx := checkReplied_good hcur ho hp hd hlive hcs hc
    have hexec : exec (.checkReadReply n (tokenFrame 0x00#8 (leBytes 2 c))) s =
        .next (s.together fun s => s.checkReplied n (tokenFrame 0x00#8 (leBytes 2 c))) := rfl
    have hidle : ((releasedBus s n).bus n).current = none := by rw [releasedBus_bus]; rfl
    refine ⟨_, hexec, ?_, fun h1 h2 h3 => ?_, fun h1 h2 => ?_, fun h1 h2 => ?_, fun h1 h2 h3 => ?_⟩
    · rw [State.bus_together, hx]
      exact (resolveCheck_busStays (releasedBus s n) t.bay c hidle).trans (releasedBus_bus s n)
    · have hr : (releasedBus s n).resolveCheck t.bay c = (releasedBus s n).commitSuccess t.bay := if_pos h1
      obtain ⟨v, hv, -⟩ := commitSuccess_more (s := releasedBus s n) (b := t.bay) h3
      rw [hr] at hx
      have hacc := commitLanded_account (releasedBus s n) t.bay
      obtain ⟨g, j, cp, hl⟩ := commitLanded_only (releasedBus s n) t.bay
      refine ⟨?_, ?_⟩
      · rw [State.account_together, hx, hv]
        refine hacc.trans ?_
        rw [h1]; rfl
      · rw [State.together_bays, hx, hv, hl]; rfl
    · have hr : (releasedBus s n).resolveCheck t.bay c = (releasedBus s n).countFailure t.bay :=
        (if_neg h1).trans ((if_pos h2).trans (commitNotLanded_eq _ _))
      rw [hr] at hx
      refine ⟨?_, fun hb => ⟨?_, ?_⟩, fun hb _ => ?_⟩
      · rw [State.account_together, hx]
        exact countFailure_account (releasedBus s n) t.bay
      · rw [State.source_together, hx, countFailure_below (s := releasedBus s n) hb]
        exact upd_get_same s.notice.sources NoticeKind.commitRetry.index fun x => joined x t.bay
      · rw [State.together_bays, hx, countFailure_below (s := releasedBus s n) hb]; rfl
      · rw [countFailure_third (s := releasedBus s n) hb] at hx
        exact faultsBay_together hx (fun _ _ => rfl) rfl rfl rfl
    · have hr : (releasedBus s n).resolveCheck t.bay c = (releasedBus s n).commitPartly t.bay c :=
        (if_neg (Nat.ne_of_lt h2)).trans ((if_neg (Nat.ne_of_gt h1)).trans (if_pos (by
          rw [Bool.and_eq_true, decide_eq_true_eq, decide_eq_true_eq]; exact ⟨h1, h2⟩)))
      rw [hr] at hx
      obtain ⟨g, j, cp, hl⟩ := partLanded_only (releasedBus s n) t.bay c
      refine ⟨?_, fun hb => ?_, fun hb _ => ?_⟩
      · rw [State.account_together, hx]
        exact commitPartly_account (releasedBus s n) t.bay c
      · obtain ⟨v, hv, hsrc⟩ := commitPartly_below (s := releasedBus s n) (b := t.bay) (c := c) hb
        refine ⟨?_, ?_⟩
        · rw [State.source_together, hx, hv]; exact hsrc
        · rw [State.together_bays, hx, hv, countFailure_below (s := partLanded (releasedBus s n) t.bay c)
            (by rw [partLanded_account]; exact hb), hl]
          rfl
      · rw [commitPartly_third (s := releasedBus s n) hb] at hx
        refine faultsBay_together hx (fun _ _ => ?_) ?_ ?_ ?_
        · rw [hl]; rfl
        · rw [hl]; rfl
        · rw [hl]; rfl
        · rw [hl]; rfl
    · have hr : (releasedBus s n).resolveCheck t.bay c = (rollbackRead (releasedBus s n) t.bay c).rejectBay t.bay .rollback :=
        (if_neg h2).trans ((if_neg h3).trans ((if_neg (by
          rw [Bool.and_eq_true, decide_eq_true_eq, decide_eq_true_eq]
          change ¬(a.committed < c ∧ c < a.target)
          omega)).trans (commitRollback_eq _ _ _)))
      rw [hr] at hx
      obtain ⟨g, j, cp, hl⟩ := rollbackRead_only (releasedBus s n) t.bay c
      have hrej : rejectsBay s (s.together fun s => s.checkReplied n (tokenFrame 0x00#8 (leBytes 2 c))) t.bay .rollback
          RejectReason.rollback.notice := by
        refine rejectsBay_together hx ?_ (fun _ _ => ?_) (fun _ => ?_) ?_ ?_ ?_
        · rw [hl]; rfl
        · rw [hl]; rfl
        · rw [hl]; rfl
        · rw [hl]; rfl
        · rw [hl]; rfl
        · rw [hl]; rfl
      exact ⟨hrej.2.2.2.2.2.1 hlive, hrej⟩
  · have hdel : (afterFailure s n t e).deliverFailure t = (afterFailure s n t e).faultBay t.bay := by
      unfold State.deliverFailure
      rw [ho]; dsimp only
      unfold State.checkFailed
      refine if_pos ?_
      unfold State.awaitsCheck
      rw [show (afterFailure s n t e).account t.bay = s.account t.bay from rfl, hlive, hcs]
      rfl
    have hstay := faultBay_busesStay (afterFailure s n t e) t.bay
    have hbus := afterFailure_bus s n t e
    rw [if_neg (by rw [ho]; simp [BusOp.kind])] at hbus
    obtain ⟨p, u, jobs, comp, l, q, h, -⟩ := (afterFailure s n t e).faultBay_only t.bay
    refine ⟨_, exec_fails_told hcur hf hd, faultsBay_together hdel (fun _ _ => rfl) rfl rfl rfl, ?_, ?_, ?_, ?_, ?_⟩
    · rw [State.together_accounts, hdel, h]; rfl
    · rw [State.together_refill, hdel, h]; rfl
    · rw [State.together_journal, hdel, h]; rfl
    · rw [State.bus_together, hdel]
      exact (faultBay_busStays (afterFailure s n t e) t.bay (by rw [hbus]; rfl)).trans hbus
    · rw [State.together_notice, hdel]; exact hstay.faults

end Sys2Proof.Machine
end

section
/-! PROOF. O25: a CONFIRM ends the commit (R41, R96, R101, R103, R104, R78). -/

namespace Sys2Proof.Machine

open Sys2Proof.Safety

variable {s : State} {b : Bay} {n : Bus}

/-! ### The FLUSHes that a success completes (R103) -/

theorem waitEnding_flush (u : State) (b : Bay) (o : FlushOutcome) {q : QueueEntry} (h : ∀ os, q.wait ≠ .flushAll os) :
    waitEnding u b { flush := some o } q = if q.wait = .flush b then
      some { tag := q.tag, result := o.result, payload := flushReply u b } else none := by
  obtain ⟨kind, tag, level, payload, w⟩ := q
  cases w <;> simp_all [waitEnding]

/-- What waits on the bay decides what an event at it completes. -/
theorem filterMap_waitingOn {α : Type} {F : QueueEntry → Option α} (s : State) (b : Bay)
    (h : ∀ q, waitsOn b q.wait = false → F q = none) : s.dispatcher.queue.filterMap F = (waitingOn s b).filterMap F := by
  unfold waitingOn
  rw [List.filterMap_filter]
  refine List.filterMap_congr fun q _ => ?_
  by_cases hq : waitsOn b q.wait = true
  · rw [if_pos hq]
  · rw [if_neg hq]; exact h q (by simpa using hq)

theorem tagsUnique_completing {q : List QueueEntry} (w : Wait) (h : (q.map (·.tag)).Nodup) : ((completing w q).map (·.tag)).Nodup := by
  unfold completing
  rw [List.map_map]
  have : q.map ((fun e => e.tag) ∘ fun e : QueueEntry => if e.wait = w then { e with wait := .replied } else e) =
      q.map fun e => e.tag := List.map_congr_left fun e _ => by
    simp only [Function.comp_apply]
    split <;> rfl
  rw [this]; exact h

/-- Pending at 0 completes the FLUSHes that wait on the bay with OK (R96, R103). -/
theorem settleFlush_requests {u : State} (hu : tagsUnique u) (hall : ∀ e ∈ u.dispatcher.queue, ∀ os, e.wait ≠ .flushAll os) :
    (u.settleWaits b { flush := some .drained }).dispatcher.queue = completing (.flush b) u.dispatcher.queue ∧
      (u.settleWaits b { flush := some .drained }).link = (u.dispatcher.queue.filterMap fun q => if q.wait = .flush b then
        some (replyOf q .ok (flushReply u b)) else none).foldl Link.place u.link := by
  rw [State.settleWaits_unique u hu b _ (.inr hall)]
  refine ⟨?_, ?_⟩
  · refine List.map_congr_left fun q hq => ?_
    rw [waitEnding_flush u b .drained (hall q hq)]
    by_cases h : q.wait = .flush b
    · rw [if_pos h, if_pos h]; rfl
    · rw [if_neg h, if_neg h]; rfl
  · refine congrArg (List.foldl Link.place u.link) (List.filterMap_congr fun q hq => ?_)
    rw [waitEnding_flush u b .drained (hall q hq)]
    by_cases h : q.wait = .flush b
    · rw [if_pos h, if_pos h]; rfl
    · rw [if_neg h, if_neg h]; rfl

/-! ### Pending at 0 (R96) -/

/-- The FLUSH demand cleared and the waiting FLUSHes completed. -/
def flushSettled (s : State) (b : Bay) : State :=
  (s.modAccount b fun a => { a with drain := { a.drain with flush := false } }).settleWaits b { flush := some .drained }

theorem flushSettled_only (s : State) (b : Bay) : ∃ l q, flushSettled s b = { s with
    accounts := upd s.accounts b fun a => { a with drain := { a.drain with flush := false } }
    link := l, dispatcher := { s.dispatcher with queue := q } } :=
  State.settleWaits_only (s.modAccount b fun a => { a with drain := { a.drain with flush := false } }) b _

theorem flushSettled_account (s : State) (b : Bay) : (flushSettled s b).account b =
    { s.account b with drain := { (s.account b).drain with flush := false } } := by
  obtain ⟨l, q, h⟩ := flushSettled_only s b
  rw [h]; exact upd_get_same _ _ _

theorem flushSettled_bay (s : State) (b c : Bay) : (flushSettled s b).bay c = s.bay c := by
  obtain ⟨l, q, h⟩ := flushSettled_only s b
  rw [h]; rfl

theorem pendingDrained_eq (s : State) (b : Bay) : s.pendingDrained b =
    if (s.account b).drain.release = true ∧ (s.bay b).state = .releasing then (flushSettled s b).roundRelease b
    else flushSettled s b := by
  unfold State.pendingDrained; dsimp only
  change (if ((flushSettled s b).account b).drain.release && ((flushSettled s b).bay b).state = .releasing then _ else _) = _
  rw [flushSettled_account, flushSettled_bay]
  refine if_congr ?_ rfl rfl
  simp

/-- The drain demands once a success has been reported (R96). -/
def Account.drained (a : Account) : Account := { a.landed with
  drain := if a.inFlight = a.pending then { a.drain with flush := false } else a.drain }

theorem drained_done {a : Account} (h : a.inFlight = a.pending) :
    a.drained = { a.landed with drain := { a.drain with flush := false } } := by
  unfold Account.drained
  rw [if_pos h]

theorem drained_more {a : Account} (h : a.inFlight < a.pending) : a.drained = a.landed := by
  unfold Account.drained
  rw [if_neg (Nat.ne_of_lt h)]; rfl

/-- A success that closes nothing, by field. -/
theorem commitSuccess_plain (hle : (s.account b).inFlight ≤ (s.account b).pending)
    (hno : ¬((s.account b).inFlight = (s.account b).pending ∧ (s.account b).drain.release = true ∧ (s.bay b).state = .releasing)) :
    ∃ v l q, s.commitSuccess b = { commitLanded s b with
        accounts := upd s.accounts b Account.drained
        notice := { (commitLanded s b).notice with sources := v }
        link := l, dispatcher := { s.dispatcher with queue := q } } ∧
      (∀ k : NoticeKind, k ≠ .allowanceExhausted → v[k.index] = (commitLanded s b).source k) ∧
      ((s.account b).inFlight < (s.account b).pending → l = s.link ∧ q = s.dispatcher.queue) ∧
      ((s.account b).inFlight = (s.account b).pending →
        l = (flushSettled (commitLanded s b) b).link ∧ q = (flushSettled (commitLanded s b) b).dispatcher.queue) := by
  obtain ⟨g, j, cp, hl⟩ := commitLanded_only s b
  have hacc := commitLanded_account s b
  rcases Nat.lt_or_eq_of_le hle with hlt | heq
  · obtain ⟨v, hv, hk⟩ := commitSuccess_more hlt
    refine ⟨v, s.link, s.dispatcher.queue, ?_, hk, fun _ => ⟨rfl, rfl⟩, fun h => absurd h (Nat.ne_of_lt hlt)⟩
    have ha : upd s.accounts b Account.drained = upd s.accounts b Account.landed := by
      exact upd_congr _ _ (drained_more hlt)
    rw [hv, ha, hl]
  · obtain ⟨l, q, hf⟩ := flushSettled_only (commitLanded s b) b
    have hp : ((commitLanded s b).account b).pending = 0 := by
      rw [hacc]; exact Nat.sub_eq_zero_of_le (Nat.le_of_eq heq.symm)
    have hbay : (commitLanded s b).bay b = s.bay b := by rw [hl]; rfl
    have hs : s.commitSuccess b = State.raiseIf (flushSettled (commitLanded s b) b)
        (((flushSettled (commitLanded s b) b).bay b).state = .admitted && decide (0 < s.allowance b) &&
          (flushSettled (commitLanded s b) b).allowance b = 0) .allowanceExhausted b := by
      rw [commitSuccess_eq]
      unfold State.allowanceChecked; dsimp only
      rw [if_pos hp, pendingDrained_eq, hacc, hbay, 
        if_neg (show ¬((s.account b).landed.drain.release = true ∧ (s.bay b).state = .releasing) from fun h => hno ⟨heq, h⟩)]
    have hsrc := fun k => source_raiseIf (flushSettled (commitLanded s b) b)
        (((flushSettled (commitLanded s b) b).bay b).state = .admitted && decide (0 < s.allowance b) &&
          (flushSettled (commitLanded s b) b).allowance b = 0) .allowanceExhausted k b
    obtain ⟨v, hv⟩ := raiseIf_fields (flushSettled (commitLanded s b) b)
        (((flushSettled (commitLanded s b) b).bay b).state = .admitted && decide (0 < s.allowance b) &&
          (flushSettled (commitLanded s b) b).allowance b = 0) .allowanceExhausted b
    refine ⟨v, l, q, ?_, fun k hk => ?_, fun h => absurd heq (Nat.ne_of_lt h), fun _ => ?_⟩
    · have ha : upd (upd s.accounts b Account.landed) b (fun a => { a with drain := { a.drain with flush := false } }) =
          upd s.accounts b Account.drained := by
        refine (upd_upd s.accounts b Account.landed _).trans (upd_congr _ _ ?_)
        exact (drained_done heq).symm
      rw [hs, hv, hf, ← ha, hl]
    · have := hsrc k
      rw [hv, if_neg fun h => hk h.1] at this
      refine (this : v[k.index] = _).trans ?_
      rw [hf]; rfl
    · rw [hf]; exact ⟨rfl, rfl⟩

end Sys2Proof.Machine
end

section
/-! PROOF. O25: the release drain, and the CONFIRM's outcomes. -/

namespace Sys2Proof.Machine

open Sys2Proof.Safety

variable {s : State} {b : Bay} {n : Bus}

/-! ### The release drain (R78, R104) -/

/-- A success that drains a RELEASING bay, up to the allowance check. -/
theorem commitSuccess_release (heq : (s.account b).inFlight = (s.account b).pending) (hr : (s.account b).drain.release = true)
    (hst : (s.bay b).state = .releasing) : ∃ p : Bool, s.commitSuccess b =
      ((flushSettled (commitLanded s b) b).roundRelease b).raiseIf
        (decide ((((flushSettled (commitLanded s b) b).roundRelease b).bay b).state = .admitted) && p) .allowanceExhausted b := by
  obtain ⟨g, j, cp, hl⟩ := commitLanded_only s b
  have hp : ((commitLanded s b).account b).pending = 0 := by
    rw [commitLanded_account]; exact Nat.sub_eq_zero_of_le (Nat.le_of_eq heq.symm)
  have hbay : (commitLanded s b).bay b = s.bay b := by rw [hl]; rfl
  refine ⟨decide (0 < s.allowance b) && decide (((flushSettled (commitLanded s b) b).roundRelease b).allowance b = 0), ?_⟩
  rw [commitSuccess_eq]
  unfold State.allowanceChecked; dsimp only
  rw [if_pos hp, pendingDrained_eq, commitLanded_account, hbay,
    if_pos (show (s.account b).landed.drain.release = true ∧ (s.bay b).state = .releasing from ⟨hr, hst⟩), Bool.and_assoc]

/-- A RELEASING account that closes at once, or once a rounded quantum has found no room (R78). -/
theorem roundRelease_closes (hm : (s.account b).metering = .metered) (hp : (s.account b).pending = 0)
    (h : (s.account b).residue < 50000000000000 ∨ (s.account b).committed = (s.account b).capacity) :
    ∃ z : State, s.roundRelease b = z.closeDrained b ∧ z.bays = s.bays ∧ (∀ c, c ≠ b → z.account c = s.account c) ∧
      z.source .released = s.source .released ∧
      (noFlush s b → z.link = s.link ∧ z.dispatcher.queue = s.dispatcher.queue) := by
  by_cases hr : (s.account b).residue < 50000000000000
  · exact ⟨s, roundRelease_drained hr hp, rfl, fun _ _ => rfl, rfl, fun _ => ⟨rfl, rfl⟩⟩
  · have hcap := h.resolve_left hr
    obtain ⟨m, d, v, l, q, ha, -, hno, hv⟩ := applyQuanta_exact (s.setResidue b 0) b 1
    have hset : (s.setResidue b 0).account b = { s.account b with residue := 0 } := upd_get_same _ _ _
    have hst : (({ s.account b with residue := 0 } : Account).stage7 1).pending = 0 := by
      have hrem : ({ s.account b with residue := 0 } : Account).remaining = 0 := by
        unfold Account.remaining; dsimp only; omega
      unfold Account.stage7
      rw [show ({ s.account b with residue := 0 } : Account).metering = .metered from hm]
      dsimp only
      rw [hrem, hp]; rfl
    have hacc : (((s.setResidue b 0).applyQuanta b 1).account b).pending = 0 := by
      rw [ha]
      refine (congrArg Account.pending (upd_get_same _ _ _)).trans ?_
      rw [show (s.setResidue b 0).accounts[b] = _ from hset]
      exact hst
    refine ⟨(s.setResidue b 0).applyQuanta b 1, ?_, ?_, fun c hc => ?_, ?_, fun hn => ?_⟩
    · unfold State.roundRelease
      exact (if_pos (Nat.not_lt.1 hr)).trans (if_pos hacc)
    · rw [ha]; rfl
    · rw [ha]
      refine (upd_get_ne _ _ hc).trans ?_
      exact upd_get_ne _ _ hc
    · rw [ha]
      refine (hv .released).trans (if_neg ?_)
      simp
    · rw [ha]; exact hno hn

theorem closeDrained_eq (s : State) (b : Bay) : s.closeDrained b = (releasedState (s.closeEmpty b) b).settleWaits b
    { flush := some .drained, release := some .ok, rechallenge := some .failed } := rfl

/-- The closing by a release drain, by field. -/
theorem closeDrained_fields (s : State) (b : Bay) : (s.closeDrained b).bays = (releasedState (s.closeEmpty b) b).bays ∧
    (s.closeDrained b).notice = (releasedState (s.closeEmpty b) b).notice ∧
    (s.closeDrained b).accounts = upd s.accounts b fun _ => Account.cold := by
  obtain ⟨-, -, ha⟩ := releasedState_requests (s.closeEmpty b) b
  obtain ⟨-, -, -, -, hc⟩ := closeEmpty_requests s b
  rw [closeDrained_eq]
  exact ⟨settleWaits_bays b _, settleWaits_notice b _, (settleWaits_accounts b _).trans (ha.trans hc)⟩

/-- A rounded quantum leaves committed (R78). -/
theorem roundRelease_committed (hr : 50000000000000 ≤ (s.account b).residue) (hp : ((s.roundRelease b).account b).pending ≠ 0) :
    ((s.roundRelease b).account b).committed = (s.account b).committed := by
  obtain ⟨m, d, v, l, q, ha, -⟩ := applyQuanta_exact (s.setResidue b 0) b 1
  have hset : (s.setResidue b 0).account b = { s.account b with residue := 0 } := upd_get_same _ _ _
  have hround : s.roundRelease b = (s.setResidue b 0).applyQuanta b 1 := by
    by_cases hz : (((s.setResidue b 0).applyQuanta b 1).account b).pending = 0
    · refine absurd ?_ hp
      rw [show s.roundRelease b = ((s.setResidue b 0).applyQuanta b 1).closeDrained b by
        unfold State.roundRelease; exact (if_pos hr).trans (if_pos hz)]
      obtain ⟨-, -, hcold⟩ := closeDrained_fields ((s.setResidue b 0).applyQuanta b 1) b
      unfold State.account
      rw [hcold]
      exact congrArg Account.pending (upd_get_same _ b fun _ => Account.cold)
    · unfold State.roundRelease; exact (if_pos hr).trans (if_neg hz)
  obtain ⟨-, -, -, -, -, -, hcom⟩ := stage7_fields ((s.setResidue b 0).account b) 1
  rw [hround, ha]
  refine (congrArg Account.committed (upd_get_same _ _ _)).trans ?_
  exact hcom.trans (by rw [hset])

/-- The RELEASE that waits on the bay completes with OK as its drain ends. -/
theorem closeDrained_link {e : QueueEntry} (hu : tagsUnique s) (he : e.wait = .release b) (hw : waitingOn s b = [e]) :
    (s.closeDrained b).link = s.link.place (replyOf e .ok [BitVec.ofNat 8 b.val, 0x08#8]) := by
  obtain ⟨hd, hl, -⟩ := releasedState_requests (s.closeEmpty b) b
  obtain ⟨hcd, hcl, -⟩ := closeEmpty_requests s b
  have hq : (releasedState (s.closeEmpty b) b).dispatcher = s.dispatcher := hd.trans hcd
  have hall : ∀ q ∈ s.dispatcher.queue, ∀ os, q.wait ≠ .flushAll os := fun q hq os hqw => by
    have hmem : q ∈ waitingOn s b := List.mem_filter.2 ⟨hq, by rw [hqw]; rfl⟩
    rw [hw, List.mem_singleton] at hmem
    rw [hmem, he] at hqw; exact nomatch hqw
  have hreply : releaseReply (releasedState (s.closeEmpty b) b) b = [BitVec.ofNat 8 b.val, 0x08#8] := by
    unfold releaseReply; rw [releasedState_bay]; rfl
  rw [closeDrained_eq, State.settleWaits_unique _ (by unfold tagsUnique; rw [hq]; exact hu) b _ (.inr (by rw [hq]; exact hall))]
  dsimp only
  rw [hq, hl, hcl, filterMap_waitingOn s b fun q hq => by rw [waitEnding_of_not_waitsOn _ _ hq]; rfl, hw]
  have hend : waitEnding (releasedState (s.closeEmpty b) b) b
      { flush := some .drained, release := some .ok, rechallenge := some .failed } e =
      some { tag := e.tag, result := .ok, payload := [BitVec.ofNat 8 b.val, 0x08#8] } := by
    rw [← hreply]
    unfold waitEnding
    rw [he]; dsimp only
    rw [if_pos rfl]; rfl
  rw [List.filterMap_cons, hend]
  rfl

/-- After the FLUSHes have completed, only the other requests wait on the bay. -/
theorem waitingOn_flushSettled (hu : tagsUnique s) (hall : ∀ e ∈ s.dispatcher.queue, ∀ os, e.wait ≠ .flushAll os) :
    tagsUnique (flushSettled s b) ∧ noFlush (flushSettled s b) b ∧
      waitingOn (flushSettled s b) b = (waitingOn s b).filter fun q => q.wait ≠ .flush b := by
  obtain ⟨hq, -⟩ := settleFlush_requests (b := b)
    (u := s.modAccount b fun a => { a with drain := { a.drain with flush := false } }) hu hall
  have hq : (flushSettled s b).dispatcher.queue = completing (.flush b) s.dispatcher.queue := hq
  refine ⟨?_, fun q hqm => ?_, ?_⟩
  · unfold tagsUnique
    rw [hq]; exact tagsUnique_completing _ hu
  · rw [hq] at hqm
    obtain ⟨p, hp, rfl⟩ := List.mem_map.1 hqm
    by_cases h : p.wait = .flush b
    · rw [if_pos h]; exact ⟨(nomatch ·), fun _ => (nomatch ·)⟩
    · rw [if_neg h]; exact ⟨h, hall p hp⟩
  · unfold waitingOn
    rw [hq, List.filter_filter]
    unfold completing
    rw [List.filter_map]
    have : ∀ l : List QueueEntry, (l.filter ((fun e => waitsOn b e.wait) ∘ fun e : QueueEntry =>
        if e.wait = .flush b then { e with wait := .replied } else e)).map (fun e : QueueEntry =>
        if e.wait = .flush b then { e with wait := .replied } else e) =
        l.filter fun q => decide (q.wait ≠ .flush b) && waitsOn b q.wait := fun l => by
      induction l with
      | nil => rfl
      | cons e l ih =>
        by_cases h : e.wait = .flush b
        · rw [List.filter_cons_of_neg (by simp [h, waitsOn]), ih, List.filter_cons_of_neg (by simp [h])]
        · by_cases hw : waitsOn b e.wait = true
          · rw [List.filter_cons_of_pos (by simp [h, hw]), List.map_cons, ih, if_neg h, List.filter_cons_of_pos (by simp [h, hw])]
          · rw [List.filter_cons_of_neg (by simp [h, hw]), ih, List.filter_cons_of_neg (by simp [hw])]
    exact this _

theorem filter_flush_waitingOn (s : State) (b : Bay) : (s.dispatcher.queue.filter fun q => q.wait = .flush b) =
    (waitingOn s b).filter fun q => q.wait = .flush b := by
  unfold waitingOn
  rw [List.filter_filter]
  refine List.filter_congr fun q _ => ?_
  by_cases h : q.wait = .flush b <;> simp [h, waitsOn]

/-- The FLUSHes that a success completes, listed by their wait. -/
theorem flushSettled_link (hu : tagsUnique s) (hall : ∀ e ∈ s.dispatcher.queue, ∀ os, e.wait ≠ .flushAll os)
    (hp : (s.account b).pending = 0) : (flushSettled s b).link =
      ((s.dispatcher.queue.filter fun q => q.wait = .flush b).map fun q =>
        replyOf q .ok [BitVec.ofNat 8 b.val, 0x00#8, 0x00#8]).foldl Link.place s.link := by
  obtain ⟨-, hl⟩ := settleFlush_requests (b := b)
    (u := s.modAccount b fun a => { a with drain := { a.drain with flush := false } }) hu hall
  have hreply : flushReply (s.modAccount b fun a => { a with drain := { a.drain with flush := false } }) b =
      [BitVec.ofNat 8 b.val, 0x00#8, 0x00#8] := by
    unfold flushReply
    rw [State.account_modAccount_same]
    dsimp only
    rw [hp]; rfl
  rw [hreply] at hl
  refine hl.trans (congrArg (List.foldl Link.place s.link) ?_)
  rw [← List.filterMap_eq_map (f := fun q => replyOf q .ok [BitVec.ofNat 8 b.val, 0x00#8, 0x00#8]), List.filterMap_filter]
  refine List.filterMap_congr fun q _ => ?_
  by_cases h : q.wait = .flush b
  · rw [if_pos h, if_pos (decide_eq_true h)]; rfl
  · rw [if_neg h, if_neg (by simpa using h)]

/-! ### The drain of a RELEASING bay -/

theorem landed_zero (heq : (s.account b).inFlight = (s.account b).pending) :
    ((commitLanded s b).account b).pending = 0 ∧ ((flushSettled (commitLanded s b) b).account b).pending = 0 := by
  have h : (s.account b).landed.pending = 0 := Nat.sub_eq_zero_of_le (Nat.le_of_eq heq.symm)
  refine ⟨by rw [commitLanded_account]; exact h, ?_⟩
  rw [flushSettled_account, commitLanded_account]; exact h

/-- What a drained success leaves unchanged before its release closes. -/
theorem flushSettled_landed (s : State) (b : Bay) : (flushSettled (commitLanded s b) b).bays = s.bays ∧
    (∀ d, d ≠ b → (flushSettled (commitLanded s b) b).account d = s.account d) ∧
    (flushSettled (commitLanded s b) b).source .released = s.source .released := by
  obtain ⟨g, j, cp, hland⟩ := commitLanded_only s b
  obtain ⟨l, q, hf⟩ := flushSettled_only (commitLanded s b) b
  refine ⟨by rw [hf, hland], fun d hd => ?_, ?_⟩
  · rw [hf]
    refine (upd_get_ne _ _ hd).trans ?_
    rw [hland]
    exact upd_get_ne _ _ hd
  · rw [hf]
    change (commitLanded s b).source .released = _
    rw [hland]
    change (if (s.account b).target = (s.account b).capacity then { s.notice with
      sources := s.notice.sources.set NoticeKind.spent.index (joined (s.source .spent) b) } else s.notice).sources[
        NoticeKind.released.index] = s.notice.sources[NoticeKind.released.index]
    split
    · exact upd_get_ne s.notice.sources (fun x => joined x b) (by decide)
    · rfl

/-- A success whose release drain closes the account (R104, R78). -/
theorem commitSuccess_closes (heq : (s.account b).inFlight = (s.account b).pending) (hrel : (s.account b).drain.release = true)
    (hst : (s.bay b).state = .releasing) (hmet : (s.account b).metering = .metered)
    (hres : (s.account b).residue < 50000000000000 ∨ (s.account b).target = (s.account b).capacity) :
    ((s.commitSuccess b).bay b).state = .released ∧ (s.commitSuccess b).source .released = joined (s.source .released) b ∧
      (∀ d, d ≠ b → (s.commitSuccess b).bay d = s.bay d ∧ (s.commitSuccess b).account d = s.account d) ∧
      (s.commitSuccess b).account b = Account.cold ∧
      ∀ e, tagsUnique s → e.wait = .release b → (∀ q ∈ waitingOn s b, ∀ os, q.wait ≠ .flushAll os) →
        ((waitingOn s b).filter fun q => q.wait ≠ .flush b) = [e] →
        (s.commitSuccess b).link = ((((waitingOn s b).filter fun q => q.wait = .flush b).map fun q =>
          replyOf q .ok [BitVec.ofNat 8 b.val, 0x00#8, 0x00#8]).foldl Link.place s.link).place
            (replyOf e .ok [BitVec.ofNat 8 b.val, 0x08#8]) := by
  obtain ⟨p, hsucc⟩ := commitSuccess_release heq hrel hst
  obtain ⟨hzero, hfzero⟩ := landed_zero heq
  obtain ⟨hfb, hfa, hfs⟩ := flushSettled_landed s b
  have hfacc := flushSettled_account (commitLanded s b) b
  rw [commitLanded_account] at hfacc
  obtain ⟨z, hz, hzb, hza, hzs, hzreq⟩ := roundRelease_closes (s := flushSettled (commitLanded s b) b) (b := b)
    (by rw [hfacc]; exact hmet) hfzero (by rw [hfacc]; exact hres)
  obtain ⟨hcb, hcn, hca⟩ := closeDrained_fields z b
  have hstate : ((z.closeDrained b).bay b).state = .released := by
    unfold State.bay
    rw [hcb]
    exact congrArg BayRec.state (releasedState_bay (z.closeEmpty b) b)
  have hx : s.commitSuccess b = z.closeDrained b := by
    rw [hsucc, hz]
    unfold State.raiseIf
    rw [if_neg (by rw [hstate]; exact Bool.false_ne_true)]
  obtain ⟨hzcd, hzcl, hzcb, hzcn, hzca⟩ := closeEmpty_requests z b
  obtain ⟨hr1, hr2, hr3⟩ := released_of (s := s) (u := z.closeEmpty b) (t := z.closeDrained b) (b := b) hcb hcn
    (hca.trans hzca.symm) (fun d _ => by unfold State.bay; rw [hzcb, hzb, hfb])
    (fun d hd => by
      unfold State.account
      rw [hzca, upd_get_ne _ _ hd]
      exact (hza d hd).trans (hfa d hd))
    (by
      rw [← hfs, ← hzs]
      unfold State.source
      rw [hzcn])
  rw [hx]
  refine ⟨hr1, hr2, hr3, ?_, fun e hun hew hall hother => ?_⟩
  · unfold State.account
    rw [hca]; exact upd_get_same _ _ _
  · obtain ⟨g, j, cp, hland⟩ := commitLanded_only s b
    have hq : (commitLanded s b).dispatcher = s.dispatcher := by rw [hland]
    have hlk : (commitLanded s b).link = s.link := by rw [hland]
    have hwo : waitingOn (commitLanded s b) b = waitingOn s b := by unfold waitingOn; rw [hq]
    have hun' : tagsUnique (commitLanded s b) := by unfold tagsUnique; rw [hq]; exact hun
    have hall' : ∀ q ∈ (commitLanded s b).dispatcher.queue, ∀ os, q.wait ≠ .flushAll os := by
      rw [hq]
      intro q hqm os hqw
      exact hall q (List.mem_filter.2 ⟨hqm, by rw [hqw]; rfl⟩) os hqw
    obtain ⟨hfu, hfno, hfw⟩ := waitingOn_flushSettled (b := b) hun' hall'
    rw [hwo, hother] at hfw
    obtain ⟨hzl, hzq⟩ := hzreq hfno
    have hzw : waitingOn z b = [e] := by
      unfold waitingOn at hfw ⊢
      rw [hzq]; exact hfw
    have hzu : tagsUnique z := by unfold tagsUnique at hfu ⊢; rw [hzq]; exact hfu
    rw [closeDrained_link hzu hew hzw, hzl, flushSettled_link hun' hall' hzero, filter_flush_waitingOn, hwo, hlk]

/-- A success whose release drain rounds half a quantum or more (R78). -/
theorem commitSuccess_rounds (heq : (s.account b).inFlight = (s.account b).pending) (hrel : (s.account b).drain.release = true)
    (hst : (s.bay b).state = .releasing) (hmet : (s.account b).metering = .metered)
    (hres : 50000000000000 ≤ (s.account b).residue) (hroom : (s.account b).target < (s.account b).capacity) :
    ((s.commitSuccess b).account b).pending = 1 ∧ ((s.commitSuccess b).account b).residue = 0 ∧
      ((s.commitSuccess b).account b).committed = (s.account b).target ∧
      ((s.commitSuccess b).account b).drain.release = true ∧ ((s.commitSuccess b).bay b).state = .releasing := by
  obtain ⟨p, hsucc⟩ := commitSuccess_release heq hrel hst
  obtain ⟨-, hfzero⟩ := landed_zero heq
  obtain ⟨hfb, -, -⟩ := flushSettled_landed s b
  have hfacc := flushSettled_account (commitLanded s b) b
  rw [commitLanded_account] at hfacc
  have hroom' : ((flushSettled (commitLanded s b) b).account b).committed + ((flushSettled (commitLanded s b) b).account b).pending <
      ((flushSettled (commitLanded s b) b).account b).capacity := by
    rw [hfzero, hfacc]; exact hroom
  obtain ⟨hb, hr, hpend, hrl⟩ := roundRelease_half (s := flushSettled (commitLanded s b) b) (b := b)
    (by rw [hfacc]; exact hres) (by rw [hfacc]; exact hmet) hroom'
  have hcom := roundRelease_committed (s := flushSettled (commitLanded s b) b) (b := b)
    (by rw [hfacc]; exact hres) (hpend ▸ Nat.succ_ne_zero _)
  generalize (flushSettled (commitLanded s b) b).roundRelease b = y at *
  obtain ⟨v, hv⟩ := raiseIf_fields y (decide ((y.bay b).state = .admitted) && p) .allowanceExhausted b
  have hacc : (s.commitSuccess b).account b = y.account b := by rw [hsucc, hv]; rfl
  have hbay : (s.commitSuccess b).bay b = s.bay b := by
    rw [hsucc, hv]
    refine (hb : _ = _).trans ?_
    unfold State.bay; rw [hfb]
  rw [hfzero] at hpend
  rw [hfacc] at hrl hcom
  rw [hacc, hbay]
  exact ⟨hpend, hr, hcom, hrl.trans hrel, hst⟩

/-! ### The CONFIRM (R41) -/

theorem leNat_leBytes_two {c : Nat} (h : c < 65536) : leNat (leBytes 2 c) = c := leNat_leBytes_of_lt h

/-- The bus with its ADVANCE ended, a rest of 1 ms following. -/
def restedBus (s : State) (n : Bus) : State := withBusState s n (idleBus (s.bus n) (some 1))

theorem restedBus_bus (s : State) (n : Bus) : (restedBus s n).bus n = idleBus (s.bus n) (some 1) :=
  upd_get_same s.buses n fun u => idleBus u (some 1)

theorem confirmReplied_good {t : Transaction} {index target : Nat} (hcur : (s.bus n).current = some t)
    (ho : t.request.op = .advance index target) (hp : t.phase = .confirm) (hd : t.discarded = false)
    (hl : (s.account t.bay).live = true) (hcs : (s.account t.bay).commitState = .advance) (hc : target < 65536) :
    s.confirmReplied n (tokenFrame 0x00#8 (leBytes 2 target)) = (restedBus s n).commitSuccess t.bay := by
  unfold State.confirmReplied
  rw [awaiting_some hcur (by rw [ho]; rfl) hp]; dsimp only
  rw [ho]; dsimp only
  rw [judge_ok (counterData_leBytes hc)]; dsimp only
  rw [if_pos rfl]
  unfold State.completeTransaction; dsimp only
  rw [if_neg (by rw [hd]; exact Bool.false_ne_true), ho]
  unfold State.advanceDone
  refine if_pos ?_
  unfold State.awaitsAdvance
  rw [show (s.endTransaction n (BusOp.advance index target).rests).account t.bay = s.account t.bay from rfl, hl, hcs]
  rfl

/-- A success that closes nothing (R96, R101, R103, R134). -/
theorem confirm_success {t : Transaction} {index target : Nat} (hcur : (s.bus n).current = some t)
    (ho : t.request.op = .advance index target) (hp : t.phase = .confirm) (hd : t.discarded = false)
    (hl : (s.account t.bay).live = true) (hcs : (s.account t.bay).commitState = .advance) (hc : target < 65536)
    (hle : (s.account t.bay).inFlight ≤ (s.account t.bay).pending)
    (hno : ¬((s.account t.bay).inFlight = (s.account t.bay).pending ∧ (s.account t.bay).drain.release = true ∧
      (s.bay t.bay).state = .releasing)) : ∃ v l q, ∀ u : State, u = { commitLanded (restedBus s n) t.bay with
        accounts := upd s.accounts t.bay Account.drained
        notice := { (commitLanded (restedBus s n) t.bay).notice with sources := v }
        link := l, dispatcher := { s.dispatcher with queue := q } } →
      s.confirmReplied n (tokenFrame 0x00#8 (leBytes 2 target)) = u ∧
      (∀ k : NoticeKind, k ≠ .allowanceExhausted → v[k.index] = (commitLanded (restedBus s n) t.bay).source k) ∧
      ((s.account t.bay).inFlight < (s.account t.bay).pending → l = s.link ∧ q = s.dispatcher.queue) ∧
      ((s.account t.bay).inFlight = (s.account t.bay).pending → tagsUnique s →
        (∀ e ∈ s.dispatcher.queue, ∀ os, e.wait ≠ .flushAll os) → q = completing (.flush t.bay) s.dispatcher.queue ∧
        l = ((s.dispatcher.queue.filter fun q => q.wait = .flush t.bay).map fun q =>
          replyOf q .ok [BitVec.ofNat 8 t.bay.val, 0x00#8, 0x00#8]).foldl Link.place s.link) := by
  obtain ⟨v, l, q, h, hk, hlt, heq⟩ := commitSuccess_plain (s := restedBus s n) (b := t.bay) hle hno
  refine ⟨v, l, q, fun u hu => ⟨(confirmReplied_good hcur ho hp hd hl hcs hc).trans (h.trans hu.symm), hk, hlt, fun he hun hall => ?_⟩⟩
  obtain ⟨h1, h2⟩ := heq he
  obtain ⟨g, j, cp, hland⟩ := commitLanded_only (restedBus s n) t.bay
  have hq : (commitLanded (restedBus s n) t.bay).dispatcher = s.dispatcher := by rw [hland]; rfl
  have hlk : (commitLanded (restedBus s n) t.bay).link = s.link := by rw [hland]; rfl
  have hun' : tagsUnique (commitLanded (restedBus s n) t.bay) := by unfold tagsUnique; rw [hq]; exact hun
  have hall' : ∀ e ∈ (commitLanded (restedBus s n) t.bay).dispatcher.queue, ∀ os, e.wait ≠ .flushAll os := by rw [hq]; exact hall
  have hzero : ((commitLanded (restedBus s n) t.bay).account t.bay).pending = 0 := by
    rw [commitLanded_account]; exact Nat.sub_eq_zero_of_le (Nat.le_of_eq he.symm)
  obtain ⟨hqueue, -⟩ := settleFlush_requests (b := t.bay) (u := (commitLanded (restedBus s n) t.bay).modAccount t.bay fun a =>
    { a with drain := { a.drain with flush := false } }) hun' hall'
  refine ⟨?_, ?_⟩
  · rw [h2]
    refine Eq.trans (b := completing (.flush t.bay) (commitLanded (restedBus s n) t.bay).dispatcher.queue) hqueue ?_
    rw [hq]
  · rw [h1, flushSettled_link hun' hall' hzero, hq, hlk]

/-- A CONFIRM that reads another counter leaves the commit in doubt (R42, R98). -/
theorem confirm_mismatch {t : Transaction} {index target c : Nat} (hcur : (s.bus n).current = some t)
    (ho : t.request.op = .advance index target) (hp : t.phase = .confirm) (hd : t.discarded = false)
    (hl : (s.account t.bay).live = true) (hcs : (s.account t.bay).commitState = .advance) (hc : c < 65536) (hne : c ≠ target) :
    exec (.confirmReply n (tokenFrame 0x00#8 (leBytes 2 c))) s = .next (withAccount
        (withBusState { s with notice := { s.notice with
            faults := joinFaults s.notice.faults (recordFor s n t .verifyMismatch) } } n (idleBus (s.bus n) (some 1)))
        t.bay { s.account t.bay with commitState := .check }) := by
  have hfails : transactionFails s (.confirmReply n (tokenFrame 0x00#8 (leBytes 2 c))) n t .verifyMismatch := by
    refine .inr ⟨tokenFrame 0x00#8 (leBytes 2 c), ?_, .inr (.inr (.inr (.inr ⟨index, target, leBytes 2 c, rfl, rfl, rfl, ho, hp, ?_⟩)))⟩
    · unfold awaitedReply
      rw [ho, hp]; rfl
    · rw [leNat_leBytes_two hc]; exact hne
  have hdel := deliverFailure_advance (w := afterFailure s n t .verifyMismatch) (by rw [ho]; rfl) hl hcs
  rw [if_pos (by rw [hp]; rfl)] at hdel
  refine (exec_fails_only hcur hfails hd hdel rfl).trans (congrArg Host.Outcome.next ?_)
  unfold afterFailure
  rw [if_pos (show t.request.op.kind = .advance ∨ t.request.op.kind = .mark from .inl (by rw [ho]; rfl)),
    if_neg (show ¬t.request.op.kind = .answerFetch by rw [ho]; exact fun h => nomatch h)]
  rfl

/-- Settles O25: a success by what is left pending, the release drain by its residue, a mismatch by the doubt it leaves. -/
theorem confirmEndsTheCommit : Obligations.ConfirmEndsTheCommit := by
  intro s n t index target c hcur ho hp hd hc hlive hcs a bay confirm
  refine ⟨fun hct hle hno => ?_, fun hct heq hrel hst hmet => ?_, fun hne => ?_⟩
  · subst hct
    obtain ⟨v, l, q, h⟩ := confirm_success hcur ho hp hd hlive hcs hc hle hno
    obtain ⟨hx, hk, hmore, hdone⟩ := h _ rfl
    obtain ⟨g, j, cp, hland⟩ := commitLanded_only (restedBus s n) t.bay
    have hexec : exec confirm s = .next (s.together fun s => s.confirmReplied n (tokenFrame 0x00#8 (leBytes 2 c))) := rfl
    refine ⟨_, hexec, ?_, ?_, ?_, ?_, ?_, ?_, ?_, ?_, ?_, ?_, fun x hz => ?_, fun hlt => ?_, fun he hun hall => ⟨?_, fun hnone => ?_, fun e hone => ?_⟩⟩
    · rw [State.together_accounts, hx]; rfl
    · rw [State.bus_together, hx]
      have hb := commitLanded_buses (restedBus s n) t.bay
      exact (congrArg (fun w : Vector BusState 3 => w[n]) hb).trans (restedBus_bus s n)
    · rw [State.together_bays, hx, hland]; rfl
    · rw [State.together_ports, hx, hland]; rfl
    · rw [State.together_orders, hx, hland]
      change (if a.target = a.capacity then upd s.orders t.bay (placeOrder .spent) else s.orders) = _
      by_cases hcap : a.target = a.capacity
      · rw [if_pos hcap]
        by_cases hso : ∀ o ∈ s.markOrders t.bay, o.mark ≠ .spent
        · rw [if_pos ⟨hcap, hso⟩, upd_eq_set, placeOrder_eq, if_neg]
          · rfl
          · rintro ⟨o, ho, hm⟩; exact hso o ho hm
        · rw [if_neg fun h => hso h.2]
          refine upd_id _ _ _ ?_
          rw [placeOrder_eq, if_pos]
          rw [not_forall] at hso
          obtain ⟨o, ho⟩ := hso
          obtain ⟨h1, h2⟩ := Classical.not_imp.1 ho
          exact ⟨o, h1, not_not.1 h2⟩
      · rw [if_neg hcap, if_neg fun h => hcap h.1]
    · rw [State.source_together, hx]
      refine (hk .spent (by decide)).trans ?_
      rw [hland]
      change (if a.target = a.capacity then { s.notice with
        sources := s.notice.sources.set NoticeKind.spent.index (joined (s.source .spent) t.bay) } else s.notice).sources[
          NoticeKind.spent.index] = _
      by_cases hcap : a.target = a.capacity
      · rw [if_pos hcap, if_pos hcap]
        exact upd_get_same s.notice.sources NoticeKind.spent.index fun x => joined x t.bay
      · rw [if_neg hcap, if_neg hcap]; rfl
    · rw [State.together_digest, hx, hland]; rfl
    · obtain ⟨l', n', ht⟩ := s.together_only fun s => s.confirmReplied n (tokenFrame 0x00#8 (leBytes 2 c))
      rw [ht, hx]
    · rw [State.together_supply, hx, hland]; rfl
    · rw [State.together_journal, hx, hland]; rfl
    · rw [State.entry_together, hx]
      exact commitLanded_entry (s := restedBus s n) hz
    · obtain ⟨h1, h2⟩ := hmore hlt
      refine ⟨?_, ?_⟩
      · rw [State.together_dispatcher, hx, h2]
      · rw [together_silent (f := fun s => s.confirmReplied n (tokenFrame 0x00#8 (leBytes 2 c))) hx h1]
        exact h1
    · rw [State.together_dispatcher, hx]
      exact (hdone he hun hall).1
    · have h1 : l = s.link := by
        rw [(hdone he hun hall).2, List.filter_eq_nil_iff.2 fun e he => by simpa using hnone e he]
        rfl
      rw [together_silent (f := fun s => s.confirmReplied n (tokenFrame 0x00#8 (leBytes 2 c))) hx h1]
      exact h1
    · have h1 : l = s.link.place (replyOf e .ok [bay, 0x00#8, 0x00#8]) := by
        rw [(hdone he hun hall).2, hone]; rfl
      have h2 := State.together_of_place (s := s) (f := fun s => s.confirmReplied n (tokenFrame 0x00#8 (leBytes 2 c)))
        (r := replyOf e .ok [bay, 0x00#8, 0x00#8]) (by rw [hx]; exact h1)
      rw [h2, hx, placing_link]
      exact h1
  · subst hct
    have hx := confirmReplied_good hcur ho hp hd hlive hcs hc
    have hexec : exec confirm s = .next (s.together fun s => s.confirmReplied n (tokenFrame 0x00#8 (leBytes 2 c))) := rfl
    refine ⟨_, hexec, fun hres => ?_, fun hres hroom => ?_⟩
    · obtain ⟨hr1, hr2, hr3, hr4, hlink⟩ := commitSuccess_closes (s := restedBus s n) heq hrel hst hmet hres
      rw [← hx] at hr1 hr2 hr3 hr4 hlink
      refine ⟨by rw [State.account_together]; exact hr4, by rw [State.bay_together]; exact hr1,
        by rw [State.source_together]; exact hr2, fun d hd => by rw [State.bay_together, State.account_together]; exact hr3 d hd,
        fun hun e hew => ⟨fun hone => ?_, fun f hfw hpair => ?_⟩⟩
      · have h1 := hlink e hun hew (fun q hqm os hqw => by
          rw [show waitingOn (restedBus s n) t.bay = [e] from hone, List.mem_singleton] at hqm
          rw [hqm, hew] at hqw; exact nomatch hqw)
          (by rw [show waitingOn (restedBus s n) t.bay = [e] from hone]; simp [hew])
        rw [show waitingOn (restedBus s n) t.bay = [e] from hone, List.filter_cons_of_neg (by simp [hew])] at h1
        have h2 := State.together_of_place (s := s) (f := fun s => s.confirmReplied n (tokenFrame 0x00#8 (leBytes 2 c))) h1
        rw [h2, placing_link]
        exact h1
      · have hpair : waitingOn (restedBus s n) t.bay = [e, f] ∨ waitingOn (restedBus s n) t.bay = [f, e] := hpair
        have hflush : ((waitingOn (restedBus s n) t.bay).filter fun q => q.wait = .flush t.bay) = [f] := by
          rcases hpair with h | h <;> rw [h] <;> simp [hew, hfw]
        have h1 := hlink e hun hew (fun q hqm os hqw => by
          have : q = e ∨ q = f := by rcases hpair with h | h <;> rw [h] at hqm <;> simpa [or_comm] using hqm
          rcases this with rfl | rfl
          · rw [hew] at hqw; exact nomatch hqw
          · rw [hfw] at hqw; exact nomatch hqw) (by rcases hpair with h | h <;> rw [h] <;> simp [hew, hfw])
        rw [hflush] at h1
        exact State.together_eitherOrder (s := s) (f := fun s => s.confirmReplied n (tokenFrame 0x00#8 (leBytes 2 c))) h1
    · have h := commitSuccess_rounds (s := restedBus s n) heq hrel hst hmet hres hroom
      rw [← hx] at h
      rw [State.account_together, State.bay_together]
      exact h
  · exact confirm_mismatch hcur ho hp hd hlive hcs hc hne

end Sys2Proof.Machine
end

section
/-! PROOF. O60, first part: what the end of an exchange leaves, and the admission with the entry's debt. -/

namespace Sys2Proof.Machine

open Sys2Proof.Safety

variable {s w : State} {b : Bay}

/-! ### The bay's act on an outcome (R59, R60) -/

/-- What the bay does of the outcome of an exchange of a kind. -/
def actsOn (w : State) (b : Bay) (kind : Option ChallengeKind) (o : ExchangeOutcome) : State :=
  match kind with
  | some .admission => w.admissionOutcome b o
  | some .rechallenge => w.rechallengeOutcome b o
  | none => w

/-- R58: how an exchange without a failure is judged, both answers being there. -/
def outcomeOf (s : State) (k : SlotNo) (token expected : BitVec 128) : ExchangeOutcome :=
  if (s.slot k).state = .enabled then if token = expected then .agree else .mismatch else .noLongerEnabled

theorem judge_both {c : Context} {k : SlotNo} {token expected : BitVec 128} (hs : c.slot = some k) (hf : c.endCause = .none)
    (ht : c.tokenAnswer = some token) (he : c.expected = .present expected) :
    c.judge (s.slotEnabled c.slot) = outcomeOf s k token expected := by
  unfold Context.judge outcomeOf State.slotEnabled
  rw [hs, hf, ht, he]
  by_cases h : (s.slot k).state = .enabled
  · by_cases h2 : token = expected
    · subst h2; simp [h]
    · simp [h, h2, Ne.symm h2]
  · simp [h]

/-- The event that brings an exchange's second answer ends it. -/
theorem judgeIfComplete_both {f : Context → Context} {k : SlotNo} {token expected : BitVec 128}
    (hkind : (f (s.context b)).kind = (s.context b).kind) (hs : (f (s.context b)).slot = some k)
    (hf : (f (s.context b)).endCause = .none) (ht : (f (s.context b)).tokenAnswer = some token)
    (he : (f (s.context b)).expected = .present expected) : (s.modContext b f).judgeIfComplete b =
      actsOn (endedExchange s b) b (s.context b).kind (outcomeOf s k token expected) := by
  have hj := judge_both (s := s.modContext b f) hs hf ht he
  unfold State.judgeIfComplete
  rw [State.context_modContext_same, if_pos (by rw [ht, he]; rfl)]
  unfold State.judgeExchange; dsimp only
  rw [State.context_modContext_same, endedExchange_eq, hj, hkind]
  cases (s.context b).kind with
  | none => rfl
  | some kind => cases kind <;> rfl

/-! ### The engine's part of an outcome (R56, R61) -/

theorem rejectBay_digest_eq (s : State) (b : Bay) (r : RejectReason) : (s.rejectBay b r).digest =
    { s.digest.dropJob b with contexts := upd s.digest.contexts b fun _ => Context.closed } := by
  rw [rejectBay_digest, leaveTo_eq]

theorem raiseIf_digest (s : State) (p : Bool) (k : NoticeKind) (b : Bay) : (s.raiseIf p k b).digest = s.digest := by
  unfold State.raiseIf
  split <;> rfl

theorem settleWaits_digest (s : State) (b : Bay) (e : Ending) : (s.settleWaits b e).digest = s.digest := by
  obtain ⟨l, q, h⟩ := s.settleWaits_only b e
  rw [h]

theorem openAccount_digest (s : State) (b : Bay) (m : Metering) (n r : Nat) : (s.openAccount b m n r).digest = s.digest := by
  unfold State.openAccount
  split
  · cases m with
    | metered => exact (raiseIf_digest _ _ _ _).trans (by
        obtain ⟨g, v, l, q, h, -⟩ := State.takeDebt_only (s.modAccount b _) b n r
        rw [h]; rfl)
    | unmetered => exact (raiseIf_digest _ _ _ _).trans (by
        obtain ⟨v, h, -⟩ := State.addOverdraw_only (s.modAccount b _) b n
        rw [h]; rfl)
  · rfl

theorem modEntryJournaled_digest (s : State) (x : Serial) (f : HistoryEntry → HistoryEntry) :
    (s.modEntryJournaled x f).digest = s.digest := by
  obtain ⟨t, j, k, h⟩ := s.modEntryJournaled_only x f
  rw [h]

theorem openWithDebt_digest (s : State) (b : Bay) (x : Serial) (m : Metering) :
    ((s.enterAdmitted b).openWithDebt b x m).digest = s.digest :=
  (openAccount_digest _ _ _ _ _).trans (modEntryJournaled_digest _ _ _)

theorem actOnVerdict_digest (s : State) (b : Bay) (x : Serial) (u : UsagePage) (v : Verdict) :
    (s.actOnVerdict b x u v).digest = s.digest ∨ (s.actOnVerdict b x u v).digest =
      { s.digest.dropJob b with contexts := upd s.digest.contexts b fun _ => Context.closed } := by
  unfold State.actOnVerdict
  cases v with
  | none => exact .inl rfl
  | genuine => exact .inl (openWithDebt_digest _ _ _ _)
  | clone => exact .inr (rejectBay_digest_eq _ _ _)
  | rollback => exact .inr (rejectBay_digest_eq _ _ _)
  | refilled =>
    have hd : ((if u.refill then s else s.orderMark b .refill).raise .refill b).digest = s.digest := by
      change (if u.refill then s else s.orderMark b .refill).digest = _
      split <;> rfl
    dsimp only
    generalize (if u.refill then s else s.orderMark b .refill).raise .refill b = y at hd
    rw [← hd]
    split
    · exact .inl (openWithDebt_digest _ _ _ _)
    · exact .inr (by rw [leaveTo_eq])

/-- An outcome leaves the engine as it was, or takes the bay's job and context from it again. -/
theorem actsOn_digest (w : State) (b : Bay) (kind : Option ChallengeKind) (o : ExchangeOutcome) (ho : o ≠ .communication) :
    (actsOn w b kind o).digest = w.digest ∨ (actsOn w b kind o).digest =
      { w.digest.dropJob b with contexts := upd w.digest.contexts b fun _ => Context.closed } := by
  unfold actsOn
  cases kind with
  | none => exact .inl rfl
  | some kind =>
    cases kind with
    | admission =>
      cases o with
      | communication => exact absurd rfl ho
      | noLongerEnabled => exact .inr (rejectBay_digest_eq _ _ _)
      | mismatch => exact .inr (rejectBay_digest_eq _ _ _)
      | agree =>
        change (w.takeVerdict b).digest = _ ∨ (w.takeVerdict b).digest = _
        unfold State.takeVerdict
        split
        · have hd : ∀ x v u, ((w.recordVerdict x v u).setVerdict b v).digest = w.digest := fun x v u =>
            modEntryJournaled_digest w x _
          have h := fun x v u => actOnVerdict_digest ((w.recordVerdict x v u).setVerdict b v) b x u v
          simp only [hd] at h
          exact h _ _ _
        · exact .inl rfl
    | rechallenge =>
      cases o with
      | communication => exact absurd rfl ho
      | noLongerEnabled => exact .inr (rejectBay_digest_eq _ _ _)
      | mismatch =>
        change (ite _ _ _ : State).digest = _ ∨ (ite _ _ _ : State).digest = _
        split
        · exact .inl rfl
        · exact .inr (rejectBay_digest_eq _ _ _)
      | agree =>
        exact .inl (settleWaits_digest _ _ _)

theorem actsOn_context {kind : Option ChallengeKind} {o : ExchangeOutcome} (ho : o ≠ .communication)
    (h : w.context b = Context.closed) : (actsOn w b kind o).context b = Context.closed := by
  have hc : (actsOn w b kind o).context b = (actsOn w b kind o).digest.contexts[b] := rfl
  rw [hc]
  rcases actsOn_digest w b kind o ho with hd | hd
  · rw [hd]; exact h
  · rw [hd]; exact upd_get_same _ _ _

theorem actsOn_queue {kind : Option ChallengeKind} {o : ExchangeOutcome} (ho : o ≠ .communication)
    (h : w.digest.queue = []) : (actsOn w b kind o).digest.queue = [] := by
  rcases actsOn_digest w b kind o ho with hd | hd
  · rw [hd]; exact h
  · rw [hd]
    change w.digest.queue.filter _ = []
    rw [h]; rfl

theorem outcomeOf_ne (s : State) (k : SlotNo) (token expected : BitVec 128) : outcomeOf s k token expected ≠ .communication := by
  unfold outcomeOf
  split
  · split <;> exact ExchangeOutcome.noConfusion
  · exact ExchangeOutcome.noConfusion

/-! ### No other bay (R59, R60) -/

theorem openAccount_bays (s : State) (b : Bay) (m : Metering) (n r : Nat) : (s.openAccount b m n r).bays = s.bays := by
  have hr : ∀ (y : State) (p : Bool), (y.raiseIf p .allowanceExhausted b).bays = y.bays := fun y p => by
    obtain ⟨v, h, -⟩ := y.raiseIf_only p .allowanceExhausted b
    rw [h]
  unfold State.openAccount
  split
  · cases m with
    | metered => exact (hr _ _).trans (by
        obtain ⟨g, v, l, q, h, -⟩ := State.takeDebt_only (s.modAccount b _) b n r
        rw [h]; rfl)
    | unmetered => exact (hr _ _).trans (by
        obtain ⟨v, h, -⟩ := State.addOverdraw_only (s.modAccount b _) b n
        rw [h]; rfl)
  · rfl

theorem openWithDebt_bay_ne (s : State) {b d : Bay} (hd : d ≠ b) (x : Serial) (m : Metering) :
    ((s.enterAdmitted b).openWithDebt b x m).bay d = s.bay d := by
  obtain ⟨t, j, k, h⟩ := (s.enterAdmitted b).modEntryJournaled_only x
    fun e => { e with debtQuanta := 0, debtResidue := 0, doubt := none }
  have h1 : ((s.enterAdmitted b).clearDebt x).bays = (s.enterAdmitted b).bays := by
    unfold State.clearDebt; rw [h]
  have h2 := (openAccount_bays ((s.enterAdmitted b).clearDebt x) b m ((s.enterAdmitted b).debtOf x).1
    ((s.enterAdmitted b).debtOf x).2).trans h1
  exact (congrArg (fun v : Vector BayRec 12 => v[d]) h2).trans (upd_get_ne _ _ hd)

theorem rejectBay_bay_ne (s : State) {b d : Bay} (hd : d ≠ b) (why : RejectReason) : (s.rejectBay b why).bay d = s.bay d := by
  obtain ⟨p, u, jobs, comp, a, t, w, l, q, j, c, h, -⟩ := s.rejectBay_only b why
  rw [h]; exact upd_get_ne _ _ hd

theorem actOnVerdict_bay_ne (s : State) {b d : Bay} (hd : d ≠ b) (x : Serial) (u : UsagePage) (v : Verdict) :
    (s.actOnVerdict b x u v).bay d = s.bay d := by
  unfold State.actOnVerdict
  cases v with
  | none => rfl
  | genuine => exact openWithDebt_bay_ne s hd _ _
  | clone => exact rejectBay_bay_ne s hd _
  | rollback => exact rejectBay_bay_ne s hd _
  | refilled =>
    have hy : ((if u.refill then s else s.orderMark b .refill).raise .refill b).bay d = s.bay d := by
      change (if u.refill then s else s.orderMark b .refill).bay d = _
      split <;> rfl
    dsimp only
    generalize (if u.refill then s else s.orderMark b .refill).raise .refill b = y at hy
    rw [← hy]
    split
    · exact openWithDebt_bay_ne y hd _ _
    · obtain ⟨p, u', jobs, comp, h, -⟩ := y.leaveTo_only b .quarantined .none
      rw [h]; exact upd_get_ne _ _ hd

/-- An outcome changes the record of no other bay. -/
theorem actsOn_bay_ne (w : State) {b d : Bay} (hd : d ≠ b) (kind : Option ChallengeKind) {o : ExchangeOutcome}
    (ho : o ≠ .communication) : (actsOn w b kind o).bay d = w.bay d := by
  have hmod : ∀ f : BayRec → BayRec, (w.modBay b f).bay d = w.bay d := fun f => by rw [State.bay_modBay, if_neg hd]
  unfold actsOn
  cases kind with
  | none => rfl
  | some kind =>
    cases kind with
    | admission =>
      cases o with
      | communication => exact absurd rfl ho
      | noLongerEnabled => exact rejectBay_bay_ne w hd _
      | mismatch => exact (rejectBay_bay_ne _ hd _).trans (hmod _)
      | agree =>
        change (w.takeVerdict b).bay d = _
        unfold State.takeVerdict
        split
        · refine (actOnVerdict_bay_ne _ hd _ _ _).trans ((upd_get_ne _ _ hd).trans ?_)
          obtain ⟨t, j, k, h⟩ := w.modEntryJournaled_only _ _
          have hb := congrArg State.bays h
          exact (congrArg (fun v : Vector BayRec 12 => v[d]) hb :)
        · rfl
    | rechallenge =>
      cases o with
      | communication => exact absurd rfl ho
      | noLongerEnabled => exact rejectBay_bay_ne w hd _
      | mismatch =>
        change (ite _ _ _ : State).bay d = _
        split
        · exact hmod _
        · exact (rejectBay_bay_ne _ hd _).trans (hmod _)
      | agree => exact (settleWaits_bay _ _ _).trans (hmod _)

/-! ### The event that ends an exchange (R57) -/

/-- State `w` is `s` with the exchange of bay `b` over, but for its buses, ports and engine. -/
structure EndsFrom (s w : State) (b : Bay) : Prop where
  bay : w.bay b = { s.bay b with fetchDue := false }
  others : ∀ d, d ≠ b → w.bay d = s.bay d
  accounts : w.accounts = s.accounts
  refill : w.refill = s.refill
  notice : w.notice = s.notice
  orders : w.orders = s.orders
  supply : w.supply = s.supply
  dispatcher : w.dispatcher = s.dispatcher
  context : w.context b = Context.closed

theorem endsFrom_of {u : State} (h : u = { s with ports := u.ports, buses := u.buses, digest := u.digest }) :
    EndsFrom s (endedExchange u b) b := by
  have hb : u.bays = s.bays := by rw [h]
  refine ⟨?_, fun d hd => ?_, ?_, ?_, ?_, ?_, ?_, ?_, ?_⟩
  · rw [endedExchange_bay]
    unfold State.bay; rw [hb]
  · refine (upd_get_ne u.bays (fun r => { r with fetchDue := false }) hd).trans ?_
    rw [hb]; rfl
  · rw [h]; rfl
  · rw [h]; rfl
  · rw [h]; rfl
  · rw [h]; rfl
  · rw [h]; rfl
  · rw [h]; rfl
  · exact upd_get_same u.digest.contexts b fun _ => Context.closed

/-- The event that brings the second of two answers ends the exchange, and the bay acts on its outcome. -/
theorem exchangeEnds_exec {c : Instr} {k : SlotNo} {token expected : BitVec 128} (h : exchangeEnds s c b token expected)
    (hk : (s.context b).slot = some k) : ∃ w t l n, exec c s = .next t ∧ EndsFrom s w b ∧
      t = { actsOn w b (s.context b).kind (outcomeOf s k token expected) with link := l, free := n } := by
  obtain ⟨hf, h⟩ := h
  rcases h with ⟨rfl, hc, hq, ht⟩ | ⟨t, data, rfl, hd, rfl, hcur, rfl, hop, hp, hdis, he⟩
  · obtain ⟨u, hu⟩ : ∃ u : State, u = { s with digest := { s.digest with computing := none } } := ⟨_, rfl⟩
    have hctx : u.context b = s.context b := by rw [hu]; rfl
    have hslot : ∀ j, u.slot j = s.slot j := fun j => by rw [hu]; rfl
    have hdone : s.engineDone = actsOn (endedExchange u b) b (s.context b).kind (outcomeOf s k token expected) := by
      have hj := judgeIfComplete_both (s := u) (b := b) (k := k) (token := token) (expected := expected)
        (f := fun x => { x with job := .done, expected := .present expected }) rfl
        (by rw [hctx]; exact hk) (by rw [hctx]; exact hf) (by rw [hctx]; exact ht) rfl
      have ho : outcomeOf u k token expected = outcomeOf s k token expected := by unfold outcomeOf; rw [hslot]
      rw [hctx, ho] at hj
      have hqueue : (endedExchange u b).digest.queue = [] := by
        have : (endedExchange u b).digest.queue = s.digest.queue.filter fun j => j.bay != b := by rw [hu]; rfl
        rw [this, hq]; rfl
      rw [← runEngine_empty (actsOn_queue (kind := (s.context b).kind) (outcomeOf_ne s k token expected) hqueue), ← hj, hu]
      unfold State.engineDone
      rw [hc]; rfl
    obtain ⟨l, n, hl⟩ := s.together_only State.engineDone
    refine ⟨endedExchange u b, _, l, n, rfl, endsFrom_of (by rw [hu]), ?_⟩
    rw [hl, hdone]
  · obtain ⟨u, hu⟩ : ∃ u : State, u = withBusState (s.clearFetchCount t.bay) (busOf t.bay)
      (idleBus ((s.clearFetchCount t.bay).bus (busOf t.bay)) ((s.clearFetchCount t.bay).bus (busOf t.bay)).restTimer) := ⟨_, rfl⟩
    have hctx : u.context t.bay = s.context t.bay := by rw [hu]; rfl
    have hslot : ∀ j, u.slot j = s.slot j := fun j => by rw [hu]; rfl
    have hreply : s.fetchReply (busOf t.bay) (tokenFrame 0x00#8 data) = actsOn (endedExchange u t.bay) t.bay
        (s.context t.bay).kind (outcomeOf s k (BitVec.ofNat 128 (beNat data)) expected) := by
      have hj := judgeIfComplete_both (s := u) (b := t.bay) (k := k) (token := BitVec.ofNat 128 (beNat data))
        (expected := expected) (f := fun x => { x with tokenAnswer := some (BitVec.ofNat 128 (beNat data)) }) rfl
        (by rw [hctx]; exact hk) (by rw [hctx]; exact hf) rfl (by rw [hctx]; exact he)
      have ho : outcomeOf u k (BitVec.ofNat 128 (beNat data)) expected = outcomeOf s k (BitVec.ofNat 128 (beNat data)) expected := by
        unfold outcomeOf; rw [hslot]
      rw [hctx, ho] at hj
      rw [fetchReply_good hcur hop hp hd, completeTransaction_eq _ _ (not_rests (by rw [hop]; decide)),
        if_neg (by rw [hdis]; exact Bool.false_ne_true), ← hj, hu]
      rfl
    obtain ⟨l, n, hl⟩ := s.together_only fun s => s.fetchReply (busOf t.bay) (tokenFrame 0x00#8 data)
    refine ⟨endedExchange u t.bay, _, l, n, rfl, endsFrom_of (by rw [hu]; rfl), ?_⟩
    rw [hl, hreply]

end Sys2Proof.Machine
end

section
/-! PROOF. O60: the outcomes of an exchange. -/

namespace Sys2Proof.Machine

open Sys2Proof.Safety

variable {s w : State} {b : Bay}

/-! ### The mode and the FLUSH demand once quanta are laid (R90) -/

theorem effectiveMode_congr (x : Settings) {a c : Account} (hb : a.bands = c.bands) (hw : a.writeProtect = c.writeProtect)
    (hr : a.remaining = c.remaining) (hl : a.level = c.level) : effectiveMode x a = effectiveMode x c := by
  have h1 : (fun t : TokenBand => t.covers a) = fun t => t.covers c := by
    funext t; unfold TokenBand.covers; rw [hl]
  have h2 : (fun p : PrinterBand => p.covers a) = fun p => p.covers c := by
    funext p; unfold PrinterBand.covers; rw [hr]
  unfold effectiveMode candidateModes
  rw [hb, hw, h1, h2]

/-- An account that quanta, a mode or a demand are laid on keeps what the mode is taken from, but for what remains. -/
theorem level_of_remaining {a c : Account} (hr : a.remaining = c.remaining) (hv : a.live = c.live)
    (hm : a.metering = c.metering) (hc : a.capacity = c.capacity) : a.level = c.level := by
  unfold Account.level
  rw [hr, hv, hm, hc]

theorem stage7_bands (a : Account) (n : Nat) : (a.stage7 n).bands = a.bands ∧ (a.stage7 n).writeProtect = a.writeProtect := by
  unfold Account.stage7
  split <;> exact ⟨rfl, rfl⟩

theorem recomputeMode_settled (s : State) (b : Bay) :
    ((s.recomputeMode b).account b).mode = effectiveMode s.settings (s.account b) ∧
      ((s.account b).drain.flush = false → ((s.recomputeMode b).account b).drain.flush = false) := by
  unfold State.recomputeMode; dsimp only
  split
  · rename_i h
    exact ⟨h.symm, id⟩
  · split
    · rw [settleWaits_account, State.account_modAccount_same]
      exact ⟨rfl, fun _ => rfl⟩
    · rw [State.account_modAccount_same]
      exact ⟨rfl, id⟩

/-- The account that laid quanta leave, by the recomputation of its mode (R76). -/
theorem applyQuanta_account (s : State) (b : Bay) (n : Nat) : ∃ d, (s.applyQuanta b n).account b =
    { (if ((s.layQuanta b n).account b).remaining = (s.account b).remaining then s.layQuanta b n
        else (s.layQuanta b n).recomputeMode b).account b with lowNotified := d } := by
  unfold State.applyQuanta State.allowanceChecked State.afterStage7; dsimp only
  generalize (if ((s.layQuanta b n).account b).remaining = (s.account b).remaining then s.layQuanta b n
    else (s.layQuanta b n).recomputeMode b) = y
  obtain ⟨v, hv⟩ := raiseIf_fields (y.lowTest b) (decide (((y.lowTest b).bay b).state = .admitted) &&
    decide (0 < s.allowance b) && decide ((y.lowTest b).allowance b = 0)) .allowanceExhausted b
  obtain ⟨d, w, h, -⟩ := y.lowTest_only b
  refine ⟨d, ?_⟩
  rw [hv]
  change (y.lowTest b).account b = _
  rw [h]; exact upd_get_same _ _ _

/-- An account whose mode is the effective one has the effective one once quanta are laid on it, and gains no FLUSH demand. -/
theorem applyQuanta_settled (n : Nat) (hm : (s.account b).mode = effectiveMode s.settings (s.account b))
    (hf : (s.account b).drain.flush = false) :
    ((s.applyQuanta b n).account b).mode = effectiveMode s.settings ((s.account b).stage7 n) ∧
      ((s.applyQuanta b n).account b).drain.flush = false := by
  obtain ⟨f1, f2, -, f4, f5, f6, f7⟩ := stage7_fields (s.account b) n
  obtain ⟨f8, f9⟩ := stage7_bands (s.account b) n
  have hlay : (s.layQuanta b n).account b = (s.account b).stage7 n := by
    obtain ⟨v, h⟩ := raiseIf_fields (s.modAccount b (·.stage7 n))
      ((s.account b).overdraw = 0 && decide (0 < ((s.account b).stage7 n).overdraw)) .overdraw b
    unfold State.layQuanta; dsimp only
    rw [h]; exact upd_get_same _ _ _
  have hset : (s.layQuanta b n).settings = s.settings := by
    obtain ⟨v, h⟩ := raiseIf_fields (s.modAccount b (·.stage7 n))
      ((s.account b).overdraw = 0 && decide (0 < ((s.account b).stage7 n).overdraw)) .overdraw b
    unfold State.layQuanta; dsimp only
    rw [h]; rfl
  obtain ⟨d, hacc⟩ := applyQuanta_account s b n
  rw [hacc]; dsimp only
  split
  · rename_i hr
    rw [hlay] at hr ⊢
    rw [f4, f5, hm]
    exact ⟨effectiveMode_congr _ f8.symm f9.symm hr.symm (level_of_remaining hr.symm f1.symm f2.symm f6.symm), hf⟩
  · obtain ⟨k1, k2⟩ := recomputeMode_settled (s.layQuanta b n) b
    rw [hlay, hset] at k1
    exact ⟨k1, k2 (by rw [hlay, f5]; exact hf)⟩

/-! ### The opening of a METERED account (R77, R83, R128) -/

/-- A METERED account at its opening with a debt taken in (R77). -/
def openedMetered (i : IdentityPage) (c : CalibrationPage) (u : UsagePage) (save : Bool) (n r : Nat) (m : Mode) (low : Bool) : Account :=
  { Account.opened i c u .metered save with
    residue := r, pending := min n (i.capacity - u.counter), overdraw := min (n - (i.capacity - u.counter)) 65535
    mode := m, lowNotified := low }

theorem openAccount_metered {i : IdentityPage} {c : CalibrationPage} {u : UsagePage} (n : Nat) {r : Nat} (hr : r < 100000000000000)
    (hi : (s.bay b).identityPage = some i) (hc : (s.bay b).calibrationPage = some c) (hu : (s.bay b).usagePage = some u) :
    ∃ m low v l q, s.openAccount b .metered n r = { s with
        accounts := upd s.accounts b fun _ => openedMetered i c u s.supply.saving n r m low
        notice := { s.notice with sources := v }, link := l, dispatcher := { s.dispatcher with queue := q } } ∧
      m = effectiveMode s.settings (openedMetered i c u s.supply.saving n r m low) ∧
      SourcesOnly ledgerKinds s.notice.sources v := by
  obtain ⟨a, ha⟩ : ∃ a, a = Account.opened i c u .metered s.supply.saving := ⟨_, rfl⟩
  obtain ⟨y, hy⟩ : ∃ y, y = s.modAccount b fun _ => { a with mode := effectiveMode s.settings a, residue := r } := ⟨_, rfl⟩
  have hya : y.account b = { a with mode := effectiveMode s.settings a, residue := r } := by
    rw [hy, State.account_modAccount_same]
  have hyset : y.settings = s.settings := by rw [hy]; rfl
  have hopen : s.openAccount b .metered n r = (y.applyQuanta b n).raiseIf
      (decide (((y.applyQuanta b n).bay b).state = .admitted) && decide ((y.applyQuanta b n).allowance b = 0))
      .allowanceExhausted b := by
    have hdebt : (s.modAccount b fun _ => { a with mode := effectiveMode s.settings a }).takeDebt b n r = y.applyQuanta b n := by
      have hz : ((s.modAccount b fun _ => { a with mode := effectiveMode s.settings a }).account b).residue = 0 := by
        rw [State.account_modAccount_same, ha]; rfl
      unfold State.takeDebt; dsimp only
      rw [hz, Nat.zero_add, show residueOf r = r from Nat.mod_eq_of_lt hr, show quantaOf r = 0 from Nat.div_eq_of_lt hr, hy]
      simp only [State.setResidue, State.modAccount, upd_upd, Nat.add_zero]
    unfold State.openAccount
    rw [hi, hc, hu]; dsimp only
    rw [← hdebt, ha]
    rfl
  obtain ⟨k1, k2⟩ := applyQuanta_settled (s := y) (b := b) n
    (by rw [hya, hyset]; exact effectiveMode_congr _ rfl rfl rfl rfl) (by rw [hya, ha]; rfl)
  obtain ⟨m, d, low, v, l, q, h, hv⟩ := y.applyQuanta_only b n
  have hacc : (y.applyQuanta b n).account b = { (y.account b).stage7 n with
      mode := m, drain := { (y.account b).drain with flush := d }, lowNotified := low } := by
    rw [h]; exact upd_get_same _ _ _
  rw [hacc] at k1 k2
  have hstage : ({ (y.account b).stage7 n with
      mode := m, drain := { (y.account b).drain with flush := d }, lowNotified := low } : Account) =
      openedMetered i c u s.supply.saving n r m low := by
    change d = false at k2
    rw [hya, ha, k2]
    have hmet : ({ Account.opened i c u .metered s.supply.saving with
        mode := effectiveMode s.settings (Account.opened i c u .metered s.supply.saving), residue := r } : Account).stage7 n =
      { Account.opened i c u .metered s.supply.saving with
        mode := effectiveMode s.settings (Account.opened i c u .metered s.supply.saving), residue := r
        pending := 0 + min n (i.capacity - u.counter - 0)
        overdraw := min (0 + (n - min n (i.capacity - u.counter - 0))) 65535 } := rfl
    have hover : 0 + (n - min n (i.capacity - u.counter - 0)) = n - (i.capacity - u.counter) := by omega
    rw [hmet, hover, Nat.zero_add, Nat.sub_zero]
    rfl
  obtain ⟨v', hlast, hv'⟩ := (y.applyQuanta b n).raiseIf_only (decide (((y.applyQuanta b n).bay b).state = .admitted) &&
    decide ((y.applyQuanta b n).allowance b = 0)) .allowanceExhausted b
  refine ⟨m, low, v', l, q, ?_, ?_, ?_⟩
  · have hacc' : (upd y.accounts b fun a => { a.stage7 n with mode := m, drain := { a.drain with flush := d }, lowNotified := low }) =
        upd s.accounts b fun _ => openedMetered i c u s.supply.saving n r m low := by
      have hconst : upd y.accounts b (fun _ => openedMetered i c u s.supply.saving n r m low) =
          upd s.accounts b fun _ => openedMetered i c u s.supply.saving n r m low := by
        rw [hy]; exact upd_upd s.accounts b (fun _ => _) fun _ => openedMetered i c u s.supply.saving n r m low
      exact (upd_congr _ _ hstage).trans hconst
    rw [hopen, hlast, h, hacc', hy]
    rfl
  · change m = _ at k1
    refine k1.trans ?_
    rw [hyset, ← hstage]
    exact effectiveMode_congr _ rfl rfl rfl rfl
  · rw [h] at hv'
    have : SourcesOnly ledgerKinds s.notice.sources v := by rw [hy] at hv; exact hv
    exact this.trans (hv'.mono (by simp [ledgerKinds]))

theorem joined_admitted {v : Vector Source 21} (h : SourcesOnly ledgerKinds (upd s.notice.sources
      NoticeKind.admitted.index fun x => { x with bays := x.bays ||| (1#12 <<< b.val) }) v) {k : NoticeKind} (hk : k ∉ ledgerKinds) :
    v[k.index] = if k = .admitted then joined (s.source .admitted) b else s.source k := by
  rw [h k hk]
  split
  · rename_i hka; subst hka; exact upd_get_same _ _ _
  · rename_i hka; exact source_upd_ne _ _ hka

/-- R128: the admission with a METERED account, by field. -/
theorem admitMetered_only {i : IdentityPage} {c : CalibrationPage} {u : UsagePage} {e : HistoryEntry} {x : Serial}
    (hi : (s.bay b).identityPage = some i) (hc : (s.bay b).calibrationPage = some c) (hu : (s.bay b).usagePage = some u)
    (he : s.entry x = some e) (hr : e.debtResidue < 100000000000000) :
    ∃ m low v t j k l q, (s.enterAdmitted b).openWithDebt b x .metered = { s with
        bays := upd s.bays b fun r =>
          { r with state := .admitted, rechallenge := .idle, rechallengeTimer := timerStart s.settings.interval }
        accounts := upd s.accounts b fun _ => openedMetered i c u s.supply.saving e.debtQuanta e.debtResidue m low
        notice := { s.notice with sources := v }, refill := { s.refill with table := t }
        journal := { s.journal with appendSet := j, copyStale := k }
        link := l, dispatcher := { s.dispatcher with queue := q } } ∧
      m = effectiveMode s.settings (openedMetered i c u s.supply.saving e.debtQuanta e.debtResidue m low) ∧
      v[NoticeKind.admitted.index] = joined (s.source .admitted) b ∧
      ((s.enterAdmitted b).openWithDebt b x .metered).entry x =
        some { e with debtQuanta := 0, debtResidue := 0, doubt := none } := by
  obtain ⟨y, t, j, k, hy, hent, hw⟩ := openWithDebt_from (b := b) he
  have hbay : y.bay b = { s.bay b with
      state := .admitted, rechallenge := .idle, rechallengeTimer := timerStart s.settings.interval } := by
    rw [hy]; exact upd_get_same _ _ _
  obtain ⟨m, low, v, l, q, ho, hm, hv⟩ := openAccount_metered (s := y) (b := b) (i := i) (c := c) (u := u) e.debtQuanta hr
    (by rw [hbay]; exact hi) (by rw [hbay]; exact hc) (by rw [hbay]; exact hu)
  have hsup : y.supply = s.supply := by rw [hy]
  have hset : y.settings = s.settings := by rw [hy]
  rw [hsup] at ho hm
  rw [hset] at hm
  refine ⟨m, low, v, t, j, k, l, q, ?_, hm, ?_, ?_⟩
  · rw [hw, ho, hy]
  · rw [hy] at hv; exact joined_admitted hv (k := .admitted) (by decide)
  · rw [hw, ho]; exact hent

/-! ### Rejections (R12, R60, R130) -/

/-- Between `s` and `t` bay `b` is REJECTED for a reason, with its notice raised. -/
def rejectedFor (s t : State) (b : Bay) (why : RejectReason) (notice : NoticeKind) : Prop :=
  (t.bay b).state = .rejected ∧ (t.bay b).rejectReason = why ∧ (t.bay b).rechallenge = .idle ∧
    (t.bay b).rechallengeTimer = none ∧ ((s.account b).live = true → t.account b = Account.cold) ∧
    t.source notice = joined (s.source notice) b

theorem rejectBay_for {v : State} (why : RejectReason) (ha : v.accounts = s.accounts) (hn : v.source why.notice = s.source why.notice) :
    rejectedFor s (v.rejectBay b why) b why why.notice ∧
      (v.rejectBay b why).bay b = { v.bay b with
        fetchDue := false, state := .rejected, rejectReason := why, rechallenge := .idle, rechallengeTimer := none } ∧
      ∀ d, d ≠ b → (v.rejectBay b why).bay d = v.bay d := by
  obtain ⟨p, u, jobs, comp, a, t, w, l, q, j, c, h, -, hl, hk⟩ := v.rejectBay_only b why
  have hbay : (v.rejectBay b why).bay b = { v.bay b with
      fetchDue := false, state := .rejected, rejectReason := why, rechallenge := .idle, rechallengeTimer := none } := by
    rw [h]; exact upd_get_same _ _ _
  refine ⟨⟨by rw [hbay], by rw [hbay], by rw [hbay], by rw [hbay], fun hb => ?_, ?_⟩, hbay, fun d hd => ?_⟩
  · rw [h]; exact hl (by unfold State.account at hb ⊢; rw [ha]; exact hb)
  · rw [h]
    refine (upd_get_same w why.notice.index fun x => { x with bays := x.bays ||| (1#12 <<< b.val) }).trans ?_
    rw [hk _ (RejectReason.notice_not_ledger why), ← hn]; rfl
  · rw [h]; exact upd_get_ne _ _ hd

/-! ### The verdict (R11, R126, R127) -/

/-- The bay and the entry once a verdict is given and recorded. -/
theorem recordVerdict_only {x : Serial} {e : HistoryEntry} (he : w.entry x = some e) (v : Verdict) (u : UsagePage) :
    ∃ (y : State) (t : List HistoryEntry) (j : List Serial) (k : Bool), (w.recordVerdict x v u).setVerdict b v = y ∧ y = { w with
      bays := upd w.bays b fun r => { r with verdict := v }
      refill := { w.refill with table := t }, journal := { w.journal with appendSet := j, copyStale := k } } ∧
      y.entry x = some { e.merge u with lastVerdict := v } := by
  have hent := entry_modEntryJournaled w x (fun e => { e.merge u with lastVerdict := v }) fun _ => rfl
  rw [he] at hent
  obtain ⟨t, j, k, h⟩ := w.modEntryJournaled_only x fun e => { e.merge u with lastVerdict := v }
  refine ⟨_, t, j, k, rfl, ?_, hent⟩
  unfold State.recordVerdict
  rw [h]; rfl

theorem takeVerdict_eq {i : IdentityPage} {u : UsagePage} (hi : (w.bay b).identityPage = some i)
    (hu : (w.bay b).usagePage = some u) : w.takeVerdict b =
      ((w.recordVerdict i.serial (w.verdict b i.serial u) u).setVerdict b (w.verdict b i.serial u)).actOnVerdict b i.serial u
        (w.verdict b i.serial u) := by
  unfold State.takeVerdict
  rw [hi, hu]

/-- The verdict depends on the bays' states and identity pages and on the serial's entry alone (R126). -/
theorem verdict_congr {x : Serial} {u : UsagePage} (hd : ∀ c, (w.bay c).drawable = (s.bay c).drawable)
    (hs : ∀ c, w.serialRead c = s.serialRead c) (he : w.entry x = s.entry x) : w.verdict b x u = s.verdict b x u := by
  have hx : w.drawnElsewhere b x = s.drawnElsewhere b x := by
    unfold State.drawnElsewhere
    refine congrArg _ (funext fun c => ?_)
    rw [hd, hs]
  unfold State.verdict
  rw [hx, he]

theorem EndsFrom.verdict (h : EndsFrom s w b) (x : Serial) (u : UsagePage) : w.verdict b x u = s.verdict b x u := by
  have key : ∀ c, (w.bay c).state = (s.bay c).state ∧ (w.bay c).identityPage = (s.bay c).identityPage := fun c => by
    by_cases hc : c = b
    · rw [hc, h.bay]; exact ⟨rfl, rfl⟩
    · rw [h.others c hc]; exact ⟨rfl, rfl⟩
  refine verdict_congr (fun c => ?_) (serialRead_congr fun c => (key c).2) ?_
  · unfold BayRec.drawable; rw [(key c).1]
  · unfold State.entry; rw [h.refill]

/-- R129: a REFILL order stands, and REFILL is raised. -/
theorem refillRaised_only (y : State) (b : Bay) (u : UsagePage) : ∃ (z : State) (os : Vector (List MarkOrder) 12),
    (if u.refill then y else y.orderMark b .refill).raise .refill b = z ∧ z = { y with
      orders := os
      notice := { y.notice with
        sources := upd y.notice.sources NoticeKind.refill.index fun x => { x with bays := x.bays ||| (1#12 <<< b.val) } } } ∧
    os[b] = (if u.refill = true ∨ ∃ o ∈ y.markOrders b, o.mark = .refill then y.markOrders b
      else y.markOrders b ++ [{ mark := .refill, attempts := 0 }]) := by
  cases hr : u.refill with
  | true => exact ⟨_, _, rfl, rfl, (if_pos (.inl rfl)).symm⟩
  | false =>
    refine ⟨_, upd y.orders b (placeOrder .refill), rfl, rfl, (upd_get_same y.orders b (placeOrder .refill)).trans ?_⟩
    have hany : ((y.orders[b].any fun o => decide (o.mark = .refill)) = true) =
        (false = true ∨ ∃ o ∈ y.markOrders b, o.mark = .refill) := by
      simp [State.markOrders]
    unfold placeOrder
    exact if_congr (iff_of_eq hany) rfl rfl

/-- The record of a bay whose exchange admits it with verdict `v` (R11, R18). -/
def admittedRec (s : State) (b : Bay) (v : Verdict) : BayRec :=
  { s.bay b with
    state := .admitted, verdict := v, rechallenge := .idle, rechallengeTimer := timerStart s.settings.interval, fetchDue := false }

/-- An entry that a verdict was given on, its debt taken by the account (R127, R128). -/
def settledEntry (e : HistoryEntry) (v : Verdict) (u : UsagePage) : HistoryEntry :=
  { ({ e.merge u with lastVerdict := v } : HistoryEntry) with debtQuanta := 0, debtResidue := 0, doubt := none }

section
variable {i : IdentityPage} {c : CalibrationPage} {u : UsagePage} {e : HistoryEntry}

/-- The state in which a verdict has been recorded, by field. -/
theorem EndsFrom.recorded (hw : EndsFrom s w b) (he : s.entry i.serial = some e) (v : Verdict) : ∃ y : State,
    (w.recordVerdict i.serial v u).setVerdict b v = y ∧ y.bay b = { s.bay b with verdict := v, fetchDue := false } ∧
      (∀ d, d ≠ b → y.bay d = s.bay d) ∧ y.accounts = s.accounts ∧ y.orders = s.orders ∧ y.notice = s.notice ∧
      y.supply = s.supply ∧ y.dispatcher = s.dispatcher ∧ y.entry i.serial = some { e.merge u with lastVerdict := v } := by
  have he' : w.entry i.serial = some e := by unfold State.entry at he ⊢; rw [hw.refill]; exact he
  obtain ⟨y, t, j, k, hy, hyw, hent⟩ := recordVerdict_only (b := b) he' v u
  refine ⟨y, hy, ?_, fun d hd => ?_, ?_, ?_, ?_, ?_, ?_, hent⟩
  · have h1 : y.bay b = { w.bay b with verdict := v } := by rw [hyw]; exact upd_get_same _ _ _
    rw [h1, hw.bay]
  · rw [← hw.others d hd, hyw]
    exact upd_get_ne _ _ hd
  · rw [hyw]; exact hw.accounts
  · rw [hyw]; exact hw.orders
  · rw [hyw]; exact hw.notice
  · rw [hyw]; exact hw.supply
  · rw [hyw]; exact hw.dispatcher

theorem EndsFrom.takeVerdict (hw : EndsFrom s w b) (hi : (s.bay b).identityPage = some i) (hu : (s.bay b).usagePage = some u) :
    w.takeVerdict b = ((w.recordVerdict i.serial (s.verdict b i.serial u) u).setVerdict b (s.verdict b i.serial u)).actOnVerdict
      b i.serial u (s.verdict b i.serial u) := by
  rw [takeVerdict_eq (by rw [hw.bay]; exact hi) (by rw [hw.bay]; exact hu), hw.verdict]

/-- R128. -/
theorem EndsFrom.genuine (hw : EndsFrom s w b) (hi : (s.bay b).identityPage = some i)
    (hc : (s.bay b).calibrationPage = some c) (hu : (s.bay b).usagePage = some u) (he : s.entry i.serial = some e)
    (hr : e.debtResidue < 100000000000000) (hv : s.verdict b i.serial u = .genuine) :
    ∃ z, w.takeVerdict b = z ∧ z.bay b = admittedRec s b .genuine ∧ (∀ d, d ≠ b → z.bay d = s.bay d) ∧
      z.source .admitted = joined (s.source .admitted) b ∧ z.entry i.serial = some (settledEntry e .genuine u) ∧
      (∀ d, d ≠ b → z.account d = s.account d) ∧
      ∃ m low, m = effectiveMode s.settings (openedMetered i c u s.supply.saving e.debtQuanta e.debtResidue m low) ∧
        z.account b = openedMetered i c u s.supply.saving e.debtQuanta e.debtResidue m low := by
  obtain ⟨y, hy, hyb, hyd, hya, -, hyn, hys, hyq, hye⟩ := hw.recorded (u := u) he .genuine
  have hset : y.settings = s.settings := by unfold State.settings; rw [hyq]
  have ht : w.takeVerdict b = (y.enterAdmitted b).openWithDebt b i.serial .metered := by
    rw [hw.takeVerdict hi hu, hv, hy]; rfl
  obtain ⟨m, low, v, t, j, k, l, q, h, hm, hsrc, hent⟩ := admitMetered_only (s := y) (b := b) (i := i) (c := c) (u := u)
    (by rw [hyb]; exact hi) (by rw [hyb]; exact hc) (by rw [hyb]; exact hu) hye hr
  rw [← ht] at h hent
  rw [hys] at h hm
  rw [hset] at hm
  refine ⟨_, rfl, ?_, fun d hd => ?_, ?_, hent, fun d hd => ?_, m, low, hm, ?_⟩
  · have : (w.takeVerdict b).bay b = { y.bay b with
        state := .admitted, rechallenge := .idle, rechallengeTimer := timerStart y.settings.interval } := by
      rw [h]; exact upd_get_same _ _ _
    rw [this, hyb, hset]; rfl
  · rw [h, ← hyd d hd]; exact upd_get_ne _ _ hd
  · have : (w.takeVerdict b).source .admitted = v[NoticeKind.admitted.index] := by rw [h]; rfl
    rw [this, hsrc]
    unfold State.source; rw [hyn]
  · have : (w.takeVerdict b).account d = y.account d := by rw [h]; exact upd_get_ne _ _ hd
    rw [this]; unfold State.account; rw [hya]
  · rw [h]; exact upd_get_same _ _ _

/-- R130. -/
theorem EndsFrom.rejected (hw : EndsFrom s w b) (hi : (s.bay b).identityPage = some i) (hu : (s.bay b).usagePage = some u)
    (he : s.entry i.serial = some e) {v : Verdict} {why : RejectReason} (hv : s.verdict b i.serial u = v)
    (hact : ∀ y : State, y.actOnVerdict b i.serial u v = y.rejectBay b why) :
    ∃ z, w.takeVerdict b = z ∧ rejectedFor s z b why why.notice ∧ (z.bay b).verdict = v ∧ (∀ d, d ≠ b → z.bay d = s.bay d) ∧
      ((s.account b).live = false → z.entry i.serial = some { e.merge u with lastVerdict := v }) := by
  obtain ⟨y, hy, hyb, hyd, hya, -, hyn, -, -, hye⟩ := hw.recorded (u := u) he v
  have ht : w.takeVerdict b = y.rejectBay b why := by
    rw [hw.takeVerdict hi hu, hv, hy, hact]
  obtain ⟨h1, h2, h3⟩ := rejectBay_for (s := s) (v := y) (b := b) why hya (by unfold State.source; rw [hyn])
  refine ⟨_, ht, h1, by rw [h2, hyb], fun d hd => (h3 d hd).trans (hyd d hd), fun hl => ?_⟩
  obtain ⟨l, q, h⟩ := rejectBay_dead (s := y) (b := b) (r := why) (by unfold State.account at hl ⊢; rw [hya]; exact hl)
  rw [h]; exact hye

/-- R129. -/
theorem EndsFrom.refilled (hw : EndsFrom s w b) (hi : (s.bay b).identityPage = some i)
    (hc : (s.bay b).calibrationPage = some c) (hu : (s.bay b).usagePage = some u) (he : s.entry i.serial = some e)
    (hv : s.verdict b i.serial u = .refilled) :
    ∃ z, w.takeVerdict b = z ∧ (∀ d, d ≠ b → z.bay d = s.bay d) ∧ z.source .refill = joined (s.source .refill) b ∧
      (∀ d, d ≠ b → z.account d = s.account d) ∧
      z.markOrders b = (if u.refill = true ∨ ∃ o ∈ s.markOrders b, o.mark = .refill then s.markOrders b
        else s.markOrders b ++ [{ mark := .refill, attempts := 0 }]) ∧
      (s.settings.tolerance = .accept → z.bay b = admittedRec s b .refilled ∧
        z.source .admitted = joined (s.source .admitted) b ∧ z.entry i.serial = some (settledEntry e .refilled u) ∧
        z.account b = openedUnmetered s.settings i c u e.debtQuanta) ∧
      (s.settings.tolerance = .refuse → z.bay b = { s.bay b with
          state := .quarantined, verdict := .refilled, rejectReason := .none, rechallenge := .idle
          rechallengeTimer := none, fetchDue := false } ∧
        z.entry i.serial = some { e.merge u with lastVerdict := .refilled } ∧ z.account b = s.account b) := by
  obtain ⟨y, hy, hyb, hyd, hya, hyo, hyn, hys, hyq, hye⟩ := hw.recorded (u := u) he .refilled
  have hset : y.settings = s.settings := by unfold State.settings; rw [hyq]
  obtain ⟨z, os, hz, hzy, hos⟩ := refillRaised_only y b u
  have hzset : z.settings = s.settings := by rw [← hset, hzy]
  have ht : w.takeVerdict b = match s.settings.tolerance with
      | .accept => (z.enterAdmitted b).openWithDebt b i.serial .unmetered
      | .refuse => z.leaveTo b .quarantined .none := by
    rw [hw.takeVerdict hi hu, hv, hy, ← hzset, ← hz]; rfl
  have horders : os[b] = (if u.refill = true ∨ ∃ o ∈ s.markOrders b, o.mark = .refill then s.markOrders b
      else s.markOrders b ++ [{ mark := .refill, attempts := 0 }]) := by
    rw [hos]; unfold State.markOrders; rw [hyo]
  have hzb : z.bay b = { s.bay b with verdict := .refilled, fetchDue := false } := by rw [← hyb, hzy]; rfl
  have hzd : ∀ d, d ≠ b → z.bay d = s.bay d := fun d hd => by rw [← hyd d hd, hzy]; rfl
  have hza : ∀ d, z.account d = s.account d := fun d => by unfold State.account; rw [← hya, hzy]
  have hze : z.entry i.serial = some { e.merge u with lastVerdict := .refilled } := by rw [← hye, hzy]; rfl
  have hzr : z.source .refill = joined (s.source .refill) b := by
    have : z.source .refill = joined (y.source .refill) b := by rw [hzy]; exact upd_get_same _ _ _
    rw [this]; unfold State.source; rw [hyn]
  have hzm : z.source .admitted = s.source .admitted := by
    have : z.source .admitted = y.source .admitted := by
      rw [hzy]; exact source_upd_ne _ _ (by decide)
    rw [this]; unfold State.source; rw [hyn]
  have hzo : z.markOrders b = os[b] := by rw [hzy]; rfl
  cases htol : s.settings.tolerance with
  | accept =>
    rw [htol] at ht
    obtain ⟨v, t, j, k, h, hsrc, hent⟩ := admit_only (s := z) (b := b) (i := i) (c := c) (u := u)
      (by rw [hzb]; exact hi) (by rw [hzb]; exact hc) (by rw [hzb]; exact hu) hze
    refine ⟨_, ht, fun d hd => ?_, ?_, fun d hd => ?_, ?_, fun _ => ⟨?_, ?_, hent, ?_⟩, fun h => nomatch h⟩
    · rw [h, ← hzd d hd]; exact upd_get_ne _ _ hd
    · rw [h, ← hzr]; exact joined_admitted hsrc (k := .refill) (by decide)
    · rw [h, ← hza d]; exact upd_get_ne _ _ hd
    · rw [h, ← horders, ← hzo]; rfl
    · have : ((z.enterAdmitted b).openWithDebt b i.serial .unmetered).bay b = { z.bay b with
          state := .admitted, rechallenge := .idle, rechallengeTimer := timerStart z.settings.interval } := by
        rw [h]; exact upd_get_same _ _ _
      rw [this, hzb, hzset]; rfl
    · rw [h, ← hzm]; exact joined_admitted hsrc (k := .admitted) (by decide)
    · rw [h, ← hzset]; exact upd_get_same _ _ _
  | refuse =>
    rw [htol] at ht
    obtain ⟨p, bs, jobs, comp, h, -⟩ := z.leaveTo_only b .quarantined .none
    refine ⟨_, ht, fun d hd => ?_, ?_, fun d hd => ?_, ?_, fun h => (nomatch h), fun _ => ⟨?_, ?_, ?_⟩⟩
    · rw [h, ← hzd d hd]; exact upd_get_ne _ _ hd
    · rw [h, ← hzr]; rfl
    · rw [h, ← hza d]; rfl
    · rw [h, ← horders, ← hzo]; rfl
    · have : (z.leaveTo b .quarantined .none).bay b = { z.bay b with
          fetchDue := false, state := .quarantined, rejectReason := .none, rechallenge := .idle, rechallengeTimer := none } := by
        rw [h]; exact upd_get_same _ _ _
      rw [this, hzb]
    · rw [h, ← hze]; rfl
    · rw [h, ← hza b]; rfl

end

end Sys2Proof.Machine
end

section
/-! PROOF. O60: the obligation. -/

namespace Sys2Proof.Machine

open Sys2Proof.Safety

variable {s w : State} {b : Bay}

/-! ### A re-challenge and a mismatch (R59, R60) -/

theorem EndsFrom.rejectsFor {v : State} (hw : EndsFrom s w b) (why : RejectReason) {f : BayRec → BayRec}
    (hv : v = w.modBay b f) : rejectedFor s (v.rejectBay b why) b why why.notice ∧
      (v.rejectBay b why).bay b = { f { s.bay b with fetchDue := false } with
        fetchDue := false, state := .rejected, rejectReason := why, rechallenge := .idle, rechallengeTimer := none } ∧
      ∀ d, d ≠ b → (v.rejectBay b why).bay d = s.bay d := by
  obtain ⟨h1, h2, h3⟩ := rejectBay_for (s := s) (v := v) (b := b) why (by rw [hv]; exact hw.accounts)
    (by rw [hv]; exact congrArg (fun n : NoticeUnit => n.sources[why.notice.index]) hw.notice)
  have hb : v.bay b = f { s.bay b with fetchDue := false } := by rw [hv, State.bay_modBay_same, hw.bay]
  refine ⟨h1, by rw [h2, hb], fun d hd => (h3 d hd).trans ?_⟩
  rw [hv, State.bay_modBay, if_neg hd, hw.others d hd]

/-- R60, R18: a match ends a re-challenge. -/
theorem EndsFrom.matched (hw : EndsFrom s w b) :
    (w.rechallengeMatched b).bay b = { s.bay b with
        rechallenge := .idle, fetchDue := false
        rechallengeTimer := if (s.bay b).state = .admitted then timerStart s.settings.interval else (s.bay b).rechallengeTimer } ∧
      (∀ d, d ≠ b → (w.rechallengeMatched b).bay d = s.bay d) ∧ (w.rechallengeMatched b).accounts = s.accounts ∧
      (w.rechallengeMatched b).refill = s.refill ∧
      (tagsUnique s → (w.rechallengeMatched b).dispatcher.queue = completing (.rechallenge b) s.dispatcher.queue) := by
  have hset : w.settings = s.settings := by unfold State.settings; rw [hw.dispatcher]
  obtain ⟨y, hy⟩ : ∃ y, y = w.modBay b fun r => { r with
      rechallenge := .idle
      rechallengeTimer := if r.state = .admitted then timerStart w.settings.interval else r.rechallengeTimer } := ⟨_, rfl⟩
  have hm : w.rechallengeMatched b = y.settleWaits b { rechallenge := some .ok } := by rw [hy]; rfl
  have hyd : y.dispatcher = s.dispatcher := by rw [hy]; exact hw.dispatcher
  rw [hm]
  refine ⟨?_, fun d hd => ?_, ?_, ?_, fun hu => ?_⟩
  · rw [settleWaits_bay, hy, State.bay_modBay_same, hw.bay, hset]
  · rw [settleWaits_bay, hy, State.bay_modBay, if_neg hd, hw.others d hd]
  · obtain ⟨l, q, h⟩ := y.settleWaits_only b { rechallenge := some .ok }
    rw [h, hy]; exact hw.accounts
  · obtain ⟨l, q, h⟩ := y.settleWaits_only b { rechallenge := some .ok }
    rw [h, hy]; exact hw.refill
  · have hu' : tagsUnique y := by unfold tagsUnique at hu ⊢; rwa [hyd]
    rw [State.settleWaits_unique y hu' b { rechallenge := some .ok } (.inl rfl)]
    dsimp only
    rw [hyd]
    refine List.map_congr_left fun q _ => ?_
    obtain ⟨kind, tag, level, payload, wait⟩ := q
    cases wait with
    | rechallenge c => by_cases h : c = b <;> simp [waitEnding, h]
    | _ => simp [waitEnding]

/-- R60: a mismatch of a re-challenge. -/
theorem EndsFrom.mismatched (hw : EndsFrom s w b) : ∃ z, w.rechallengeOutcome b .mismatch = z ∧
    (∀ d, d ≠ b → z.bay d = s.bay d) ∧
    ((s.bay b).mismatches = 0 →
      z.bay b = { s.bay b with mismatches := 1, fetchDue := false } ∧ z.accounts = s.accounts ∧ z.refill = s.refill) ∧
    (0 < (s.bay b).mismatches →
      rejectedFor s z b .authFailed .authFailed ∧ (z.bay b).mismatches = (s.bay b).mismatches + 1) := by
  obtain ⟨y, hy⟩ : ∃ y, y = w.modBay b fun r => { r with mismatches := r.mismatches + 1 } := ⟨_, rfl⟩
  have hyb : y.bay b = { s.bay b with mismatches := (s.bay b).mismatches + 1, fetchDue := false } := by
    rw [hy, State.bay_modBay_same, hw.bay]
  have ho : w.rechallengeOutcome b .mismatch = if (y.bay b).mismatches < 2 then y else y.rejectBay b .authFailed := by
    rw [hy]; rfl
  rw [hyb] at ho
  by_cases h0 : (s.bay b).mismatches = 0
  · rw [if_pos (by rw [h0]; exact Nat.lt_add_one 1)] at ho
    refine ⟨y, ho, fun d hd => ?_, fun _ => ⟨by rw [hyb, h0], ?_, ?_⟩, fun h => absurd h0 (Nat.ne_of_gt h)⟩
    · rw [hy, State.bay_modBay, if_neg hd, hw.others d hd]
    · rw [hy]; exact hw.accounts
    · rw [hy]; exact hw.refill
  · rw [if_neg (by exact Nat.not_lt.2 (Nat.succ_le_succ (Nat.pos_of_ne_zero h0)))] at ho
    obtain ⟨h1, h2, h3⟩ := hw.rejectsFor .authFailed hy
    exact ⟨_, ho, h3, fun h => absurd h h0, fun _ => ⟨h1, by rw [h2]⟩⟩

/-! ### The obligation -/

theorem openedMetered_eq (i : IdentityPage) (p : CalibrationPage) (u : UsagePage) (x : Supply) (n r : Nat) (m : Mode) (low : Bool) :
    openedMetered i p u x.saving n r m low = { Account.cold with
      capacity := i.capacity, committed := u.counter, live := true, index := u.index, bands := p.bands
      writeProtect := u.writeProtect
      calibration := some {
        vS := max 50 (min 10000 p.vS), vM := max 50 (min 10000 p.vM), vL := max 50 (min 10000 p.vL)
        k := max (-100) (min 100 p.k), vp := p.vp }
      residue := r, pending := min n (i.capacity - u.counter), overdraw := min (n - (i.capacity - u.counter)) 65535
      mode := m, lowNotified := low
      drain := { flush := false, release := false, save := decide (x.state = .save ∨ x.state = .expired) } } := by
  have h : x.saving = decide (x.state = .save ∨ x.state = .expired) := (Bool.decide_or _ _).symm
  unfold openedMetered
  rw [h]; rfl

theorem openedUnmetered_eq (x : Settings) (i : IdentityPage) (p : CalibrationPage) (u : UsagePage) (n : Nat) : ∃ mode,
    mode = effectiveMode x (openedUnmetered x i p u n) ∧ openedUnmetered x i p u n = { Account.cold with
      capacity := i.capacity, committed := u.counter, live := true, index := u.index, bands := p.bands
      writeProtect := u.writeProtect
      calibration := some {
        vS := max 50 (min 10000 p.vS), vM := max 50 (min 10000 p.vM), vL := max 50 (min 10000 p.vL)
        k := max (-100) (min 100 p.k), vp := p.vp }
      metering := .unmetered, overdraw := min n 65535, mode := mode } := by
  refine ⟨effectiveMode x (Account.opened i p u .unmetered false), effectiveMode_congr _ rfl rfl rfl rfl, ?_⟩
  have h : addSaturating 0 n = min n 65535 := by
    unfold addSaturating; rw [Nat.zero_add]; rfl
  unfold openedUnmetered
  rw [h]; rfl

/-- Settles O60: the event ends the exchange, and each outcome follows from what the bay does of it. -/
theorem exchangeOutcomesMoveTheBay : Obligations.ExchangeOutcomesMoveTheBay := by
  intro s c b k token expected hends hslot
  dsimp only
  obtain ⟨w, t, l, n, hexec, hw, ht⟩ := exchangeEnds_exec hends hslot
  have hclosed := actsOn_context (kind := (s.context b).kind) (outcomeOf_ne s k token expected) hw.context
  refine ⟨t, hexec, by rw [ht]; exact hclosed, ?_⟩
  have hne := outcomeOf_ne s k token expected
  generalize hz : actsOn w b (s.context b).kind (outcomeOf s k token expected) = z at ht
  have hothers : ∀ d, d ≠ b → z.bay d = s.bay d := fun d hd => by rw [← hz, actsOn_bay_ne w hd _ hne, hw.others d hd]
  -- the line and the free choices aside, `t` is the state `z` that the outcome leaves
  have h1 : ∀ d, t.bay d = z.bay d := fun d => by rw [ht]; rfl
  have h2 : ∀ d, t.account d = z.account d := fun d => by rw [ht]; rfl
  have h3 : ∀ x, t.source x = z.source x := fun x => by rw [ht]; rfl
  have h4 : ∀ x, t.entry x = z.entry x := fun x => by rw [ht]; rfl
  have h5 : t.markOrders b = z.markOrders b := by rw [ht]; rfl
  have h6 : t.accounts = z.accounts := by rw [ht]
  have h7 : t.refill = z.refill := by rw [ht]
  have h8 : t.dispatcher = z.dispatcher := by rw [ht]
  simp only [h1, h2, h3, h4, h5, h6, h7, h8]
  clear h1 h2 h3 h4 h5 h6 h7 h8 ht hexec hclosed hends t
  refine ⟨hothers, fun hs hk => ?_, fun hs hne => ⟨fun hk => ?_, fun hk => ?_⟩, fun hs heq => ⟨fun hk => ?_,
    fun hk i p u e hi hp hu he hr => ⟨fun hv => ?_, fun hv => ?_, fun hv => ?_, fun hv => ?_⟩⟩⟩
  · obtain ⟨kind, hkind⟩ := Option.isSome_iff_exists.1 hk
    have ho : outcomeOf s k token expected = .noLongerEnabled := if_neg hs
    have hreject : z = (w.modBay b id).rejectBay b .unknownIssuer := by
      rw [← hz, hkind, ho, show w.modBay b id = w by unfold State.modBay; rw [upd_id _ _ _ rfl]]
      cases kind <;> rfl
    rw [hreject]
    exact (hw.rejectsFor .unknownIssuer rfl).1
  · have ho : outcomeOf s k token expected = .mismatch := (if_pos hs).trans (if_neg hne)
    have hreject : z = (w.modBay b fun r => { r with mismatches := 1 }).rejectBay b .authFailed := by
      rw [← hz, hk, ho]; rfl
    rw [hreject]
    obtain ⟨h1, h2, -⟩ := hw.rejectsFor .authFailed (f := fun r => { r with mismatches := 1 }) rfl
    exact ⟨h1, by rw [h2]⟩
  · have ho : outcomeOf s k token expected = .mismatch := (if_pos hs).trans (if_neg hne)
    obtain ⟨z', hz', -, h1, h2⟩ := hw.mismatched
    have : z = z' := by rw [← hz, ← hz', hk, ho]; rfl
    rw [this]
    exact ⟨h1, h2⟩
  · have ho : outcomeOf s k token expected = .agree := (if_pos hs).trans (if_pos heq)
    have : z = w.rechallengeMatched b := by rw [← hz, hk, ho]; rfl
    rw [this]
    obtain ⟨h1, -, h2, h3, h4⟩ := hw.matched
    exact ⟨h1, h2, h3, h4⟩
  all_goals
    have ho : outcomeOf s k token expected = .agree := (if_pos hs).trans (if_pos heq)
    have hverdict : w.takeVerdict b = z := by rw [← hz, hk, ho]; rfl
  · obtain ⟨z', hz', h1, -, h2, h3, h4, m, low, hm, ha⟩ := hw.genuine hi hp hu he hr hv
    rw [← hverdict, hz', hv]
    exact ⟨h1, h2, h3, h4, m, low, by rw [ha]; exact hm, by rw [ha]; exact openedMetered_eq i p u s.supply _ _ m low⟩
  · obtain ⟨z', hz', -, h1, h2, h3, h4, h5⟩ := hw.refilled hi hp hu he hv
    rw [← hverdict, hz', hv]
    refine ⟨h1, h2, h3, fun ht => ?_, h5⟩
    obtain ⟨k1, k2, k3, k4⟩ := h4 ht
    obtain ⟨m, hm, ha⟩ := openedUnmetered_eq s.settings i p u e.debtQuanta
    exact ⟨k1, k2, k3, m, by rw [k4]; exact hm, by rw [k4]; exact ha⟩
  · obtain ⟨z', hz', h1, h2, -, h3⟩ := hw.rejected hi hu he hv (why := .clone) fun _ => rfl
    rw [← hverdict, hz', hv]
    exact ⟨h1, h2, h3⟩
  · obtain ⟨z', hz', h1, h2, -, h3⟩ := hw.rejected hi hu he hv (why := .rollback) fun _ => rfl
    rw [← hverdict, hz', hv]
    exact ⟨h1, h2, h3⟩

end Sys2Proof.Machine
end

section
/-! PROOF. O21: the page reads and the identity handover. -/

namespace Sys2Proof.Machine

open Sys2Proof.Safety

variable {s : State} {b : Bay}

/-! ### The creation of an entry (R118, R120, R125) -/

theorem find_insertEntry (e : HistoryEntry) (t : List HistoryEntry) (h : t.find? (fun f => f.serial = e.serial) = none) :
    (insertEntry e t).find? (fun f => f.serial = e.serial) = some e := by
  induction t with
  | nil => simp [insertEntry]
  | cons f t ih =>
    have hf : ¬f.serial = e.serial := by
      intro k; rw [List.find?_cons_of_pos (by simpa using k)] at h; exact nomatch h
    rw [List.find?_cons_of_neg (by simpa using hf)] at h
    unfold insertEntry
    split
    · exact List.find?_cons_of_pos (by simp)
    · rw [List.find?_cons_of_neg (by simpa using hf)]
      exact ih h

/-- The kinds that making room for an entry can raise (R125). -/
def roomKinds : List NoticeKind := [.historyEvicted, .debtLost]

theorem makeRoom_only (s : State) : ∃ t v j k, s.makeRoom = { s with
      refill := { s.refill with table := t }, notice := { s.notice with sources := v }
      journal := { s.journal with appendSet := j, copyStale := k } } ∧ SourcesOnly roomKinds s.notice.sources v ∧
    ∀ x, s.entry x = none → t.find? (fun e => e.serial = x) = none := by
  have stay : ∃ t v j k, s = { s with
      refill := { s.refill with table := t }, notice := { s.notice with sources := v }
      journal := { s.journal with appendSet := j, copyStale := k } } ∧ SourcesOnly roomKinds s.notice.sources v ∧
      ∀ x, s.entry x = none → t.find? (fun e => e.serial = x) = none :=
    ⟨_, _, _, _, rfl, SourcesOnly.refl _ _, fun _ h => h⟩
  unfold State.makeRoom
  split
  · exact stay
  · split
    · rename_i e _
      obtain ⟨j, k, hj⟩ := (s.modRefill fun r => { r with table := r.table.filter fun f => f.serial != e.serial }).joinSet_only e.serial
      have hfind : ∀ x, s.entry x = none →
          (s.refill.table.filter fun f => f.serial != e.serial).find? (fun e => e.serial = x) = none := fun x hx => by
        unfold State.entry at hx
        rw [List.find?_eq_none] at hx ⊢
        exact fun f hf => hx f (List.mem_of_mem_filter hf)
      have hraise : SourcesOnly roomKinds s.notice.sources
          (upd s.notice.sources NoticeKind.historyEvicted.index fun x => { x with flag := true }) :=
        SourcesOnly.upd _ (by decide) _
      unfold State.evict; dsimp only
      rw [hj]
      split
      · exact ⟨_, _, j, k, rfl, hraise.trans (SourcesOnly.upd _ (by decide) _), hfind⟩
      · exact ⟨_, _, j, k, rfl, hraise, hfind⟩
    · exact stay

theorem createEntry_only (s : State) (x : Serial) (c : BitVec 16) (hx : s.entry x = none) : ∃ t v j k place,
    s.createEntry x c = { s with
      refill := { s.refill with table := t }, notice := { s.notice with sources := v }
      journal := { s.journal with appendSet := j, copyStale := k } } ∧ SourcesOnly roomKinds s.notice.sources v ∧
    (s.createEntry x c).entry x = some (HistoryEntry.created place x c) := by
  obtain ⟨t, v, j, k, h, hv, hfind⟩ := makeRoom_only s
  obtain ⟨j', k', hj⟩ := (s.makeRoom.modRefill fun r =>
    { r with table := insertEntry (HistoryEntry.created (lowestFree r.table) x c) r.table }).joinSet_only x
  refine ⟨insertEntry (HistoryEntry.created (lowestFree t) x c) t, v, j', k', lowestFree t, ?_, hv, ?_⟩
  · unfold State.createEntry; dsimp only
    rw [hj, h]; rfl
  · unfold State.createEntry; dsimp only
    rw [entry_joinSet, h]
    exact find_insertEntry (HistoryEntry.created (lowestFree t) x c) t (hfind x hx)

/-! ### The handover (R120 to R124) -/

/-- The entry of an identity handed over in bay `b` (R120 to R123): its class and last seen, its doubt resolved, its bay, and after a
failed check the usage page's counter and marks. -/
def handedEntry (b : Bay) (i : IdentityPage) (u : UsagePage) (passed : Bool) (seq : Nat) (h : HistoryEntry) : HistoryEntry :=
  let seen : HistoryEntry := { h.resolve u.counter with
    classCode := i.classCode, lastSeen := seq, bay := if h.bay = none then some b else h.bay }
  if passed then seen else seen.merge u

/-- Between `s` and `z` the identity read in bay `b` is handed over; `u` and `passed` as in R120. -/
structure HandedOver (s z : State) (b : Bay) (i : IdentityPage) (u : UsagePage) (passed : Bool) : Prop where
  frame : ∃ sv t q v j k, z = { s with
    bays := upd s.bays b fun r => { r with serial := sv }, refill := { table := t, sequence := q }
    notice := { s.notice with sources := v }, journal := { s.journal with appendSet := j, copyStale := k } }
  sources : SourcesOnly roomKinds s.notice.sources z.notice.sources
  sequence : z.refill.sequence = min (s.refill.sequence + 1) 4294967295
  bound : (∀ h, s.entry i.serial = some h → h.bay = none ∨ h.bay = some b) → (z.bay b).serial = some i.serial
  free : ¬(∀ h, s.entry i.serial = some h → h.bay = none ∨ h.bay = some b) → (s.bay b).serial ≠ some i.serial →
    (z.bay b).serial = none
  found : ∀ h, s.entry i.serial = some h → z.entry i.serial = some (handedEntry b i u passed s.refill.sequence h)
  created : s.entry i.serial = none → ∃ place, z.entry i.serial =
    some (handedEntry b i u passed s.refill.sequence (HistoryEntry.created place i.serial i.classCode))
  kept : ∀ y, (s.bay b).serial = some y → y ≠ i.serial → (s.entry i.serial).isSome = true →
    z.entry y = (s.entry y).map fun h => { h with bay := none }
  others : ∀ y, (s.bay b).serial ≠ some y → y ≠ i.serial → (s.entry i.serial).isSome = true → z.entry y = s.entry y

theorem entry_modEntryJournaled_ne (s : State) {x y : Serial} (f : HistoryEntry → HistoryEntry)
    (hf : ∀ e, (f e).serial = e.serial) (h : y ≠ x) : (s.modEntryJournaled x f).entry y = s.entry y := by
  unfold State.modEntryJournaled
  split
  · split
    · rfl
    · rw [entry_joinSet]; exact State.entry_modEntry_ne s f hf h
  · rfl

/-- The entry before it is bound (R121, R122). -/
def seenEntry (i : IdentityPage) (u : UsagePage) (seq : Nat) (h : HistoryEntry) : HistoryEntry :=
  { h.resolve u.counter with classCode := i.classCode, lastSeen := seq }

theorem resolve_fields (h : HistoryEntry) (n : Nat) : (h.resolve n).serial = h.serial ∧ (h.resolve n).bay = h.bay := by
  unfold HistoryEntry.resolve
  split <;> exact ⟨rfl, rfl⟩

/-- The first steps of a handover: the entry takes class and last seen, and the admission sequence grows. -/
theorem handover_seen {i : IdentityPage} {u : UsagePage} {h : HistoryEntry} (he : s.entry i.serial = some h) :
    ∃ (y : State) (t : List HistoryEntry) (j : List Serial) (k : Bool),
      ((s.modEntry i.serial (seenEntry i u s.refill.sequence)).modRefill fun r => { r with sequence := nextSequence r.sequence }).joinSet
        i.serial = y ∧
      y = { s with
        refill := { table := t, sequence := min (s.refill.sequence + 1) 4294967295 }
        journal := { s.journal with appendSet := j, copyStale := k } } ∧
      y.entry i.serial = some (seenEntry i u s.refill.sequence h) ∧ ∀ x, x ≠ i.serial → y.entry x = s.entry x := by
  have hser : ∀ e, (seenEntry i u s.refill.sequence e).serial = e.serial := fun e => (resolve_fields e u.counter).1
  obtain ⟨j, k, hj⟩ := ((s.modEntry i.serial (seenEntry i u s.refill.sequence)).modRefill fun r =>
    { r with sequence := nextSequence r.sequence }).joinSet_only i.serial
  refine ⟨_, _, j, k, rfl, hj, ?_, fun x hx => ?_⟩
  · rw [entry_joinSet]
    refine (State.entry_modEntry s i.serial _ hser).trans ?_
    rw [he]; rfl
  · rw [entry_joinSet]
    exact State.entry_modEntry_ne s _ hser hx

/-- The handover of an identity whose serial has an entry. -/
theorem handover_found {i : IdentityPage} {u : UsagePage} {passed : Bool} {h : HistoryEntry}
    (he : s.entry i.serial = some h) : ∃ t j k, s.handover b i u passed = { s with
      bays := upd s.bays b fun r => { r with serial := if h.bay = none ∨ h.bay = some b then some i.serial else (s.bay b).serial }
      refill := { table := t, sequence := min (s.refill.sequence + 1) 4294967295 }
      journal := { s.journal with appendSet := j, copyStale := k } } ∧
    (s.handover b i u passed).entry i.serial = some (handedEntry b i u passed s.refill.sequence h) ∧
    ∀ y, y ≠ i.serial → (s.handover b i u passed).entry y = s.entry y := by
  obtain ⟨y, t, j, k, hy, hys, hent, hne⟩ := handover_seen (u := u) he
  obtain ⟨e, hee⟩ : ∃ e, e = { seenEntry i u s.refill.sequence h with bay := if h.bay = none then some b else h.bay } := ⟨_, rfl⟩
  -- the binding
  have hbind : ∃ (z : State) (t : List HistoryEntry), (if (decide (h.bay = none) || decide (h.bay = some b)) = true then
        (y.modEntry i.serial fun e => { e with bay := some b }).modBay b fun r => { r with serial := some i.serial } else y) = z ∧
      z = { s with
        bays := upd s.bays b fun r => { r with serial := if h.bay = none ∨ h.bay = some b then some i.serial else (s.bay b).serial }
        refill := { table := t, sequence := min (s.refill.sequence + 1) 4294967295 }
        journal := { s.journal with appendSet := j, copyStale := k } } ∧
      z.entry i.serial = some e ∧ ∀ x, x ≠ i.serial → z.entry x = s.entry x := by
    by_cases hb : h.bay = none ∨ h.bay = some b
    · rw [if_pos (by simpa using hb), if_pos hb]
      refine ⟨_, _, rfl, by rw [hys]; rfl, ?_, fun x hx => ?_⟩
      · refine (State.entry_modEntry y i.serial (fun e => { e with bay := some b }) fun _ => rfl).trans ?_
        rw [hent, hee]
        rcases hb with hb | hb <;> simp [hb]
      · refine (State.entry_modEntry_ne y (fun e => { e with bay := some b }) (fun _ => rfl) hx).trans (hne x hx)
    · rw [if_neg (by simpa using hb), if_neg hb]
      refine ⟨y, t, rfl, ?_, ?_, hne⟩
      · have hid : upd s.bays b (fun r => { r with serial := (s.bay b).serial }) = s.bays := upd_id _ _ _ rfl
        rw [hys, hid]
      · rw [hent, hee, if_neg fun k => hb (.inl k)]
        have hbay : (seenEntry i u s.refill.sequence h).bay = h.bay := (resolve_fields h u.counter).2
        rw [← hbay]
  obtain ⟨z, t', hz, hzs, hzent, hzne⟩ := hbind
  have hover : s.handover b i u passed = if passed then z else z.modEntryJournaled i.serial fun e => e.merge u := by
    have hbound : ∀ x : HistoryEntry, x = seenEntry i u s.refill.sequence h →
        (decide (x.bay = none) || decide (x.bay = some b)) = (decide (h.bay = none) || decide (h.bay = some b)) := by
      rintro x rfl
      have hbay : (seenEntry i u s.refill.sequence h).bay = h.bay := (resolve_fields h u.counter).2
      rw [hbay]
    rw [← hz, ← hbound _ rfl]
    unfold State.handover; dsimp only
    rw [show (if (s.entry i.serial).isSome = true then s else s.createEntry i.serial i.classCode) = s from
      if_pos (by rw [he]; rfl)]
    unfold seenEntry at hy hent ⊢
    rw [hy, hent]
  rw [hover]
  cases passed with
  | true => exact ⟨t', j, k, hzs, by rw [if_pos rfl, hzent, hee]; rfl, hzne⟩
  | false =>
    obtain ⟨t2, j2, k2, h2⟩ := z.modEntryJournaled_only i.serial fun e => e.merge u
    refine ⟨t2, j2, k2, ?_, ?_, fun x hx => ?_⟩
    · rw [if_neg Bool.false_ne_true, h2, hzs]
    · rw [if_neg Bool.false_ne_true, entry_modEntryJournaled z i.serial (fun e => e.merge u) fun _ => rfl, hzent, hee]
      rfl
    · rw [if_neg Bool.false_ne_true, entry_modEntryJournaled_ne z (fun e => e.merge u) (fun _ => rfl) hx, hzne x hx]

/-- The handover of a bay that keeps no serial but the one just read. -/
theorem handover_handed {i : IdentityPage} {u : UsagePage} {passed : Bool}
    (hs : (s.bay b).serial = none ∨ (s.bay b).serial = some i.serial) : HandedOver s (s.handover b i u passed) b i u passed := by
  have hkept : ∀ y, (s.bay b).serial = some y → y = i.serial := fun y hy => by
    rcases hs with hs | hs
    · rw [hs] at hy; exact nomatch hy
    · rw [hs] at hy; exact (Option.some.inj hy).symm
  cases he : s.entry i.serial with
  | some h =>
    obtain ⟨t, j, k, hz, hent, hne⟩ := handover_found (b := b) (u := u) (passed := passed) he
    have hser : ((s.handover b i u passed).bay b).serial =
        if h.bay = none ∨ h.bay = some b then some i.serial else (s.bay b).serial := by
      rw [hz]
      exact congrArg BayRec.serial (upd_get_same s.bays b _)
    refine ⟨⟨_, _, _, _, _, _, hz⟩, ?_, by rw [hz], fun hb => ?_, fun hb hn => ?_, fun h' hh => ?_, fun hn => ?_, fun y hy hyn => ?_,
      fun y _ hyn _ => hne y hyn⟩
    · rw [hz]; exact SourcesOnly.refl _ _
    · rw [hser, if_pos (hb h he)]
    · have : ¬(h.bay = none ∨ h.bay = some b) := fun k => hb fun h' hh => by
        rw [he] at hh; cases hh; exact k
      rw [hser, if_neg this]
      exact hs.resolve_right hn
    · rw [he] at hh; cases hh; exact hent
    · rw [he] at hn; exact nomatch hn
    · exact absurd (hkept y hy) hyn
  | none =>
    obtain ⟨t1, v, j1, k1, place, hc, hv, hcent⟩ := createEntry_only s i.serial i.classCode he
    have hcreates : s.handover b i u passed = (s.createEntry i.serial i.classCode).handover b i u passed := by
      unfold State.handover; dsimp only
      rw [show (if (s.entry i.serial).isSome = true then s else s.createEntry i.serial i.classCode) =
          s.createEntry i.serial i.classCode from if_neg (by rw [he]; exact Bool.false_ne_true),
        show (if ((s.createEntry i.serial i.classCode).entry i.serial).isSome = true then s.createEntry i.serial i.classCode
          else (s.createEntry i.serial i.classCode).createEntry i.serial i.classCode) = s.createEntry i.serial i.classCode from
        if_pos (by rw [hcent]; rfl)]
    obtain ⟨t, j, k, hz, hent, hne⟩ := handover_found (b := b) (u := u) (passed := passed) hcent
    rw [← hcreates, if_pos (.inl rfl), hc] at hz
    rw [← hcreates, hc] at hent
    refine ⟨⟨_, _, _, v, _, _, hz⟩, ?_, by rw [hz], fun _ => ?_, fun hb => ?_, fun h' hh => (nomatch he.symm.trans hh), fun _ => ⟨place, hent⟩,
      fun y hy hyn => ?_, fun y _ _ hsome => absurd (he ▸ hsome : (none : Option HistoryEntry).isSome = true) Bool.false_ne_true⟩
    · rw [hz]; exact hv
    · rw [hz]; exact congrArg BayRec.serial (upd_get_same s.bays b _)
    · exact absurd (fun h hh => (nomatch he.symm.trans hh)) hb
    · exact absurd (hkept y hy) hyn

theorem unbind_serial (s : State) (b : Bay) : ((s.unbind b).bay b).serial = none := by
  obtain ⟨t, j, k, h⟩ := s.unbind_only b
  rw [h]
  exact congrArg BayRec.serial (upd_get_same s.bays b _)

theorem handIdentity_handed {i : IdentityPage} {u : UsagePage} {passed : Bool} :
    HandedOver s (s.handIdentity b i u passed) b i u passed := by
  unfold State.handIdentity
  cases hs : (s.bay b).serial with
  | none => exact handover_handed (.inl hs)
  | some x =>
    dsimp only
    split
    · rename_i hx; exact handover_handed (.inr (by rw [hs, hx]))
    · rename_i hx
      have hent : ∀ y, (s.unbind b).entry y = (s.entry y).map fun h => if some x = some y then { h with bay := none } else h :=
        fun y => by rw [unbind_entry, hs]
      have hsame : ∀ y, y ≠ x → (s.unbind b).entry y = s.entry y := fun y hy => by
        rw [hent]
        have hxy : ¬some x = some y := fun k => hy (Option.some.inj k).symm
        simp only [if_neg hxy]
        cases s.entry y <;> rfl
      have hi := hsame i.serial (Ne.symm hx)
      obtain ⟨t0, j0, k0, h0⟩ := s.unbind_only b
      have hseq : (s.unbind b).refill.sequence = s.refill.sequence := by rw [h0]
      have hnot : (s.notice.sources) = (s.unbind b).notice.sources := by rw [h0]
      obtain ⟨⟨sv, t, q, v, j, k, hz⟩, h2, h3, h4, h5, h6, h7, -, h9⟩ :=
        handover_handed (s := s.unbind b) (b := b) (i := i) (u := u) (passed := passed) (.inl (unbind_serial s b))
      rw [hi] at h4 h5 h6 h7 h9
      rw [hseq] at h3 h6 h7
      rw [unbind_serial] at h5 h9
      refine ⟨⟨sv, t, q, v, j, k, ?_⟩, hnot ▸ h2, h3, h4, fun hb _ => h5 hb (fun h => nomatch h), h6, h7, fun y hy hyn hsome => ?_,
        fun y hy hyn hsome => ?_⟩
      · have hb : upd (s.unbind b).bays b (fun r => { r with serial := sv }) = upd s.bays b fun r => { r with serial := sv } := by
          rw [h0]; exact upd_upd s.bays b (fun r => { r with serial := none }) fun r => { r with serial := sv }
        rw [hz, hb, h0]
      · rw [h9 y (fun h => nomatch h) hyn hsome, hent]
        have : x = y := Option.some.inj (hs.symm.trans hy)
        simp only [if_pos (congrArg some this)]
      · rw [h9 y (fun h => nomatch h) hyn hsome, hsame y fun h => hy (h ▸ hs)]

end Sys2Proof.Machine
end

section
/-! PROOF. O21: the obligation. -/

namespace Sys2Proof.Machine

open Sys2Proof.Safety

variable {s w : State} {b : Bay}

/-! ### The identity page's checks (R7) -/

theorem issuerSlot_some {tag : BitVec 32} {k : SlotNo} (hs : (s.slot k).state = .enabled) (ht : (s.slot k).tag = some tag)
    (hlow : ∀ j, j < k → ¬((s.slot j).state = .enabled ∧ (s.slot j).tag = some tag)) : s.issuerSlot tag = some k := by
  have low : ∀ j, j < k → (decide ((s.slot j).state = .enabled) && decide ((s.slot j).tag = some tag)) = false := fun j hj => by
    simpa using hlow j hj
  have this : (decide ((s.slot k).state = .enabled) && decide ((s.slot k).tag = some tag)) = true := by simp [hs, ht]
  unfold State.issuerSlot allSlots
  match k, low, this with
  | 0, _, this => simp [List.find?, this]
  | 1, low, this => simp only [List.find?, this, low 0 (by decide)]
  | 2, low, this => simp only [List.find?, this, low 0 (by decide), low 1 (by decide)]
  | 3, low, this => simp only [List.find?, this, low 0 (by decide), low 1 (by decide), low 2 (by decide)]

theorem issuerSlot_none {tag : BitVec 32} (h : ∀ k, (s.slot k).state = .enabled → (s.slot k).tag ≠ some tag) :
    s.issuerSlot tag = none := by
  unfold State.issuerSlot
  rw [List.find?_eq_none]
  intro k _
  simpa using h k

/-- The bay's record with an identity page as read, before its checks (R7). -/
def identified (r : BayRec) (i : IdentityPage) : BayRec :=
  { r with identityPage := some i, classCode := some i.classCode, readAttempts := 0 }

theorem identityRead_eq (s : State) (b : Bay) (i : IdentityPage) : s.identityRead b i = withBayRec s b
    (if (s.bay b).expectedClass != 0 && (s.bay b).expectedClass != i.classCode then
      { identified (s.bay b) i with rejectReason := .wrongClass }
    else match s.issuerSlot i.issuerTag with
      | some k => { identified (s.bay b) i with slot := some k }
      | none => { identified (s.bay b) i with rejectReason := .unknownIssuer }) := by
  have hmod : ∀ f : BayRec → BayRec, (s.modBay b fun r => identified r i).modBay b f = withBayRec s b (f (identified (s.bay b) i)) :=
    fun f => congrArg (fun v => ({ s with bays := v } : State)) (upd_upd s.bays b _ f)
  have hexp : ((s.modBay b fun r => identified r i).bay b).expectedClass = (s.bay b).expectedClass := by
    rw [State.bay_modBay_same]; rfl
  unfold State.identityRead
  change (if ((s.modBay b fun r => identified r i).bay b).expectedClass != 0 &&
    ((s.modBay b fun r => identified r i).bay b).expectedClass != i.classCode then _ else _) = _
  rw [hexp]
  split
  · exact hmod _
  · have hslot : (s.modBay b fun r => identified r i).issuerSlot i.issuerTag = s.issuerSlot i.issuerTag := rfl
    dsimp only
    change (match (s.modBay b fun r => identified r i).issuerSlot i.issuerTag with
      | some k => (s.modBay b fun r => identified r i).modBay b fun r => { r with slot := some k }
      | none => (s.modBay b fun r => identified r i).modBay b fun r => { r with rejectReason := .unknownIssuer }) = _
    rw [hslot]
    cases s.issuerSlot i.issuerTag <;> exact hmod _

/-! ### Replies (R38) -/

theorem identityReply_good {n : Bus} {t : Transaction} {p : Page} {data : List Byte} {content : PageContent}
    (hcur : (s.bus n).current = some t) (ho : t.request.op = .identRead p) (hp : t.phase = .reply) (hd : t.discarded = false)
    (hread : ∀ n, (∀ i, (s.bay t.bay).identityPage = some i → n = i.capacity) → readPage p n data = some content) :
    s.identityReply n (tokenFrame 0x00#8 data) =
      (withBusState s n (idleBus (s.bus n) (s.bus n).restTimer)).pageRead t.bay content := by
  have hk : t.request.op.kind = .identRead := by rw [ho]; rfl
  unfold State.identityReply
  rw [awaiting_some hcur hk hp]; dsimp only
  rw [ho]; dsimp only
  rw [judge_ok (hread _ fun i hi => by rw [hi])]; dsimp only
  rw [completeTransaction_eq _ _ (not_rests (by rw [hk]; decide)), if_neg (by rw [hd]; exact Bool.false_ne_true)]

/-! ### The usage page (R8, R9) -/

/-- The bay's record with a usage page as read. -/
def usageSeen (r : BayRec) (u : UsagePage) : BayRec := { r with usagePage := some u, readAttempts := 0 }

theorem usageRead_eq {i : IdentityPage} {u : UsagePage} (hi : (w.bay b).identityPage = some i) : ∃ z,
    HandedOver (withBayRec w b (usageSeen (w.bay b) u)) z b i u (decide ((w.bay b).rejectReason = .none)) ∧
    w.usageRead b u = if (w.bay b).rejectReason = .none then
      z.modBay b fun r => { r with state := .challenging, mismatches := 0, commFailures := 0 }
      else z.rejectBay b (w.bay b).rejectReason := by
  obtain ⟨y, hy⟩ : ∃ y, y = withBayRec w b (usageSeen (w.bay b) u) := ⟨_, rfl⟩
  have hyb : y.bay b = usageSeen (w.bay b) u := by rw [hy]; exact upd_get_same w.bays b fun r => usageSeen r u
  have hreason : (y.bay b).rejectReason = (w.bay b).rejectReason := by rw [hyb]; rfl
  have hpage : (y.bay b).identityPage = some i := by rw [hyb]; exact hi
  have hh := handIdentity_handed (s := y) (b := b) (i := i) (u := u) (passed := decide ((w.bay b).rejectReason = .none))
  obtain ⟨z, hz⟩ : ∃ z, z = y.handIdentity b i u (decide ((w.bay b).rejectReason = .none)) := ⟨_, rfl⟩
  rw [← hz] at hh
  have hzr : (z.bay b).rejectReason = (w.bay b).rejectReason := by
    obtain ⟨sv, t, q, v, j, k, h⟩ := hh.frame
    rw [h, ← hreason]
    have hkeep := congrArg BayRec.rejectReason (upd_get_same y.bays b fun r => { r with serial := sv })
    exact hkeep
  refine ⟨z, hy ▸ hh, ?_⟩
  unfold State.usageRead; dsimp only
  rw [show (w.modBay b fun r => { r with usagePage := some u, readAttempts := 0 }) = y from by rw [hy]; rfl, hpage]
  dsimp only
  rw [hreason, ← hz, hzr]

/-- A closing account changes no entry but its serial's (R132). -/
theorem closeWithLiability_entry_ne {x y : Serial} (hx : s.serialRead b = some x) (hy : y ≠ x) :
    (s.closeWithLiability b).entry y = s.entry y := by
  unfold State.closeWithLiability; dsimp only
  split
  · rw [show (s.modAccount b fun _ => Account.cold).serialRead b = some x from hx]; dsimp only
    unfold State.handLiability; dsimp only
    rw [entry_joinSet]
    split
    · split
      · obtain ⟨g, v, l, q, h, -⟩ := (s.modAccount b fun _ => Account.cold).takeDebt_only _ (s.account b).liability.pending
          (s.account b).liability.residue
        rw [h]; rfl
      · obtain ⟨v, h, -⟩ := (s.modAccount b fun _ => Account.cold).addOverdraw_only _ (s.account b).liability.pending
        rw [h]; rfl
    · exact State.entry_modEntry_ne (s.modAccount b fun _ => Account.cold) _ (fun _ => rfl) hy
  · rfl

theorem rejectBay_entry_ne {x y : Serial} (hx : s.serialRead b = some x) (hy : y ≠ x) (why : RejectReason) :
    (s.rejectBay b why).entry y = s.entry y := by
  obtain ⟨l, q, h⟩ := State.settleWaits_only (((s.leaveTo b .rejected why).closeWithLiability b).raise why.notice b) b failedEnding
  have h1 : (s.rejectBay b why).entry y = ((s.leaveTo b .rejected why).closeWithLiability b).entry y := by
    unfold State.rejectBay
    rw [h]; rfl
  obtain ⟨p, u, jobs, comp, hl, -⟩ := s.leaveTo_only b .rejected why
  rw [h1, closeWithLiability_entry_ne (by rw [leaveTo_serialRead]; exact hx) hy, hl]
  rfl

theorem HandedOver.bay {y z : State} {i : IdentityPage} {u : UsagePage} {p : Bool} (h : HandedOver y z b i u p) :
    z.bay b = { y.bay b with serial := (z.bay b).serial } ∧ ∀ d, d ≠ b → z.bay d = y.bay d := by
  obtain ⟨sv, t, q, v, j, k, hz⟩ := h.frame
  have hb : z.bay b = { y.bay b with serial := sv } := by rw [hz]; exact upd_get_same y.bays b fun r => { r with serial := sv }
  refine ⟨by rw [hb], fun d hd => ?_⟩
  rw [hz]; exact upd_get_ne y.bays (fun r => { r with serial := sv }) hd

/-- The state in which the page reads' bus is idle again. -/
def pageBus (s : State) (n : Bus) : State := withBusState s n (idleBus (s.bus n) (s.bus n).restTimer)

/-- What the end of a usage page's read keeps of the state `z` that the handover leaves. -/
structure usageTaken (s z r : State) (b : Bay) (x : Serial) (n : Bus) : Prop where
  pages : (r.bay b).usagePage = (z.bay b).usagePage ∧ (r.bay b).identityPage = (z.bay b).identityPage
  serial : (r.bay b).serial = (z.bay b).serial
  others : ∀ d, d ≠ b → r.bay d = z.bay d
  bus : r.bus n = z.bus n
  sequence : r.refill.sequence = z.refill.sequence
  entry : ∀ y, y ≠ x → r.entry y = z.entry y
  own : (s.bay b).rejectReason = .none ∨ (s.account b).live = false → r.entry x = z.entry x

theorem usageTaken_passed {z : State} {x : Serial} {n : Bus} : usageTaken s z
    (z.modBay b fun r => { r with state := .challenging, mismatches := 0, commFailures := 0 }) b x n := by
  refine ⟨?_, ?_, fun d hd => ?_, rfl, rfl, fun _ _ => rfl, fun _ => rfl⟩
  · rw [State.bay_modBay_same]; exact ⟨rfl, rfl⟩
  · rw [State.bay_modBay_same]
  · rw [State.bay_modBay, if_neg hd]

theorem usageTaken_failed {z : State} {x : Serial} {n : Bus} {why : RejectReason} (hx : z.serialRead b = some x)
    (hpass : ¬(s.bay b).rejectReason = .none) (ha : z.account b = s.account b) (hn : (z.bus n).current = none) :
    usageTaken s z (z.rejectBay b why) b x n := by
  obtain ⟨p, u, jobs, comp, a, t, v, l, q, j, c, h, hu, -⟩ := z.rejectBay_only b why
  have hb : (z.rejectBay b why).bay b = { z.bay b with
      fetchDue := false, state := .rejected, rejectReason := why, rechallenge := .idle, rechallengeTimer := none } := by
    rw [h]; exact upd_get_same z.bays b _
  refine ⟨by rw [hb]; exact ⟨rfl, rfl⟩, by rw [hb], fun d hd => rejectBay_bay_ne z hd why, ?_, by rw [h],
    fun y hy => rejectBay_entry_ne hx hy why, fun hlive => ?_⟩
  · rw [h]
    by_cases hnb : n = busOf b
    · subst hnb
      exact (upd_get_same z.buses (busOf b) u).trans ((hu _).2.2 hn)
    · exact upd_get_ne z.buses u hnb
  · obtain ⟨l, q, h⟩ := rejectBay_dead (s := z) (b := b) (r := why) (by rw [ha]; exact hlive.resolve_left hpass)
    rw [h]; rfl

/-- Settles O21: the bus goes idle, and the page is taken; the usage page's handover is read off `HandedOver`. -/
theorem pageReadsIdentifyTheCartridge : Obligations.PageReadsIdentifyTheCartridge := by
  intro s n t data hcur hp hd b reply ended
  have hexec : ∀ {p : Page} {content : PageContent} {x : State}, t.request.op = .identRead p →
      (∀ n, (∀ i, (s.bay t.bay).identityPage = some i → n = i.capacity) → readPage p n data = some content) →
      (pageBus s n).pageRead b content = x → x.link = s.link → exec reply s = .next x :=
    fun ho hread hx hl => congrArg Host.Outcome.next (together_silent (f := fun s => s.identityReply n _)
      ((identityReply_good hcur ho hp hd hread).trans hx) hl)
  refine ⟨fun i ho hread => ?_, fun c ho hread => ?_, fun u i ho hi hread => ?_⟩
  · have hpage : ∀ m, (∀ i, (s.bay t.bay).identityPage = some i → m = i.capacity) →
        readPage .identity m data = some (.identity i) := fun m _ => by
      change (readIdentityPage data).map _ = _
      rw [hread]; rfl
    have heq := identityRead_eq (pageBus s n) b i
    refine ⟨fun k hk => ?_, fun h0 h1 => ?_, fun h0 hnone => ?_⟩
    · obtain ⟨hclass, hs, ht, hlow⟩ := hk
      refine hexec ho hpage (heq.trans ?_) rfl
      rw [if_neg, issuerSlot_some (s := pageBus s n) hs ht hlow]
      · rfl
      · intro hc
        obtain ⟨h1, h2⟩ := (Bool.and_eq_true _ _).mp hc
        exact hclass.elim (fun h => bne_iff_ne.1 h1 h) fun h => bne_iff_ne.1 h2 h
    · refine hexec ho hpage (heq.trans ?_) rfl
      have h2 : (((pageBus s n).bay b).expectedClass != 0 && ((pageBus s n).bay b).expectedClass != i.classCode) = true :=
        (Bool.and_eq_true _ _).mpr ⟨bne_iff_ne.2 h0, bne_iff_ne.2 h1⟩
      rw [if_pos h2]
      rfl
    · refine hexec ho hpage (heq.trans ?_) rfl
      rw [if_neg, issuerSlot_none (s := pageBus s n) hnone]
      · rfl
      · intro hc
        obtain ⟨h1, h2⟩ := (Bool.and_eq_true _ _).mp hc
        exact h0.elim (fun h => bne_iff_ne.1 h1 h) fun h => bne_iff_ne.1 h2 h
  · refine hexec (content := .calibration c) ho (fun m _ => ?_) rfl rfl
    change (readCalibrationPage data).map _ = _
    rw [hread]; rfl
  · intro passed found bound
    have hpage : ∀ m, (∀ i, (s.bay t.bay).identityPage = some i → m = i.capacity) →
        readPage .usage m data = some (.usage u) := fun m hm => by
      change (readUsagePage m data).map _ = _
      rw [hm i hi, hread]; rfl
    have hreply := identityReply_good hcur ho hp hd hpage
    obtain ⟨w, hw⟩ : ∃ w, w = pageBus s n := ⟨_, rfl⟩
    obtain ⟨y, hy⟩ : ∃ y, y = withBayRec w b (usageSeen (w.bay b) u) := ⟨_, rfl⟩
    obtain ⟨z, hz, hread⟩ := usageRead_eq (w := w) (b := b) (u := u) (i := i) (by rw [hw]; exact hi)
    have hwb : w.bay b = s.bay b := by rw [hw]; rfl
    rw [← hy, hwb] at hz
    rw [hwb] at hread
    change _ = (pageBus s n).usageRead b u at hreply
    rw [← hw, hread] at hreply
    -- what the handover leaves of `s`
    have hyb : y.bay b = usageSeen (s.bay b) u := by
      rw [hy, hwb]; exact upd_get_same w.bays b fun _ => usageSeen (s.bay b) u
    have hyd : ∀ d, d ≠ b → y.bay d = s.bay d := fun d hd => by
      rw [hy]
      refine (upd_get_ne w.bays (fun _ => usageSeen (w.bay b) u) hd).trans ?_
      rw [hw]; rfl
    have hye : ∀ x, y.entry x = s.entry x := fun x => by rw [hy, hw]; rfl
    have hyq : y.refill.sequence = s.refill.sequence := by rw [hy, hw]; rfl
    obtain ⟨hzb, hzd⟩ := hz.bay
    obtain ⟨sv, t', q, v, j, k, hzy⟩ := hz.frame
    have hza : z.accounts = s.accounts := by rw [hzy, hy, hw]; rfl
    have hzbus : z.bus n = idleBus (s.bus n) (s.bus n).restTimer := by
      have : z.buses = w.buses := by rw [hzy, hy]; rfl
      unfold State.bus; rw [this, hw]
      exact upd_get_same s.buses n fun _ => idleBus (s.bus n) (s.bus n).restTimer
    have hys : (y.bay b).serial = (s.bay b).serial := by rw [hyb]; rfl
    have hpage : ∀ c, z.serialRead c = s.serialRead c := serialRead_congr fun c => by
      by_cases hc : c = b
      · rw [hc, hzb, hyb]; rfl
      · rw [hzd c hc, hyd c hc]
    have hread : z.serialRead b = some i.serial := by rw [hpage]; exact congrArg (Option.map _) hi
    have hzn : z.source .rejectedOther = s.source .rejectedOther := by
      have h1 := hz.sources .rejectedOther (by decide)
      refine h1.trans ?_
      rw [hy, hw]; rfl
    have hzreq : z.dispatcher = s.dispatcher ∧ z.link = s.link := by rw [hzy, hy, hw]; exact ⟨rfl, rfl⟩
    have hfound : ∀ h, handedEntry b i u (decide ((s.bay b).rejectReason = .none)) y.refill.sequence h = found h := fun h => by
      rw [hyq]
      obtain ⟨index, serial, code, high, marks, retired, last, quanta, residue, doubt, seen, bay⟩ := h
      by_cases hpass : (s.bay b).rejectReason = .none
      all_goals
        cases doubt <;> simp [found, passed, handedEntry, HistoryEntry.resolve, HistoryEntry.merge, Marks.union,
          UsagePage.marks, Doubt.landed, hpass]
    have hbound := hz.bound
    have hfree := hz.free
    have hhad := hz.found
    have hnew := hz.created
    have hkept := hz.kept
    simp only [hye, hys, hfound] at hbound hfree hhad hnew hkept
    obtain ⟨r, hr⟩ : ∃ r, r = s.identityReply n (tokenFrame 0x00#8 data) := ⟨_, rfl⟩
    have hout : exec reply s = .next (s.together fun s => s.identityReply n (tokenFrame 0x00#8 data)) := rfl
    rw [← hr] at hreply
    have hafter : usageTaken s z r b i.serial n := by
      rw [hreply]
      split
      · exact usageTaken_passed
      · rename_i hpass
        exact usageTaken_failed hread hpass (by unfold State.account; rw [hza]) (by rw [hzbus]; rfl)
    refine ⟨_, hout, ?_, ?_, ?_, ?_, fun d hd => ?_, fun hb => ?_, fun hb hn => ?_, fun hpass => ?_, fun hwhy => ?_,
      fun y hy hyn hsome => ?_, fun hcase => ⟨fun h hh => ?_, fun hn => ?_⟩⟩
    · rw [State.bay_together, ← hr, hafter.pages.1, hzb, hyb]; rfl
    · rw [State.bay_together, ← hr, hafter.pages.2, hzb, hyb]; exact hi
    · rw [State.bus_together, ← hr, hafter.bus, hzbus]
    · rw [State.together_refill, ← hr, hafter.sequence, hz.sequence, hyq]
    · rw [State.bay_together, ← hr, hafter.others d hd, hzd d hd, hyd d hd]
    · rw [State.bay_together, ← hr, hafter.serial, hbound hb]
    · rw [State.bay_together, ← hr, hafter.serial, hfree hb hn]
    · rw [if_pos hpass] at hreply
      rw [State.bay_together, State.together_accounts, ← hr, hreply, State.bay_modBay_same]
      exact ⟨rfl, rfl, rfl, hza⟩
    · have hnotice : (s.bay b).rejectReason.notice = .rejectedOther ∧ ¬(s.bay b).rejectReason = .none := by
        rcases hwhy with h | h <;> rw [h] <;> exact ⟨rfl, RejectReason.noConfusion⟩
      rw [if_neg hnotice.2, hr] at hreply
      have := rejectsBay_source (f := fun s => s.identityReply n (tokenFrame 0x00#8 data)) hreply hza
        (fun d hd => (hzd d hd).trans (hyd d hd)) hpage (by rw [hnotice.1]; exact hzn) hzreq.1 hzreq.2
      rwa [hnotice.1] at this
    · rw [State.entry_together, ← hr, hafter.entry y hyn, hkept y hy hyn hsome]
    · rw [State.entry_together, ← hr, hafter.own hcase, hhad h hh]
    · obtain ⟨place, hp⟩ := hnew hn
      exact ⟨place, by rw [State.entry_together, ← hr, hafter.own hcase, hp]⟩

end Sys2Proof.Machine
end

section
/-! PROOF. O12, O13 and O15: the withdrawal of a bay, the liability it moves, and the start of a re-challenge. -/

namespace Sys2Proof.Machine

open Sys2Proof.Safety

variable {s : State} {b : Bay}

/-! ### The start of a re-challenge (R19) -/

/-- Settles O15: the re-challenge may start, and its slot decides. -/
theorem waitingRechallengeStarts : Obligations.WaitingRechallengeStarts := by
  intro s b k hd hw hc hk
  obtain ⟨y, hy⟩ : ∃ y, y = withBayRec s b { s.bay b with rechallenge := .running, mismatches := 0, commFailures := 0 } := ⟨_, rfl⟩
  have hyb : y.bay b = { s.bay b with rechallenge := .running, mismatches := 0, commFailures := 0 } := by
    rw [hy]; exact upd_get_same s.bays b fun r => { r with rechallenge := .running, mismatches := 0, commFailures := 0 }
  have hyd : ∀ d, d ≠ b → y.bay d = s.bay d := fun d hd => by
    rw [hy]; exact upd_get_ne s.bays (fun r => { r with rechallenge := .running, mismatches := 0, commFailures := 0 }) hd
  have hslot : y.slotEnabled (y.bay b).slot = decide ((s.slot k).state = .enabled) := by
    rw [hyb]; dsimp only
    rw [hk, hy]; rfl
  have hstart : s.rechallengeMayStart b = true → s.startRechallenge b =
      if (s.slot k).state = .enabled then y else y.rejectBay b .unknownIssuer := fun hmay => by
    unfold State.startRechallenge
    rw [if_pos hmay]
    dsimp only
    rw [show (s.modBay b fun r => { r with rechallenge := .running, mismatches := 0, commFailures := 0 }) = y from hy.symm, hslot]
    exact if_congr (decide_eq_true_iff) rfl rfl
  refine ⟨fun hs hn => ?_, fun hs => ?_⟩
  · have hmay : s.rechallengeMayStart b = true := by simp [State.rechallengeMayStart, hd, hw, hc, hn]
    refine congrArg Host.Outcome.next (together_silent (f := fun s => s.startRechallenge b) ((hstart hmay).trans (if_pos hs)) ?_ |>.trans ?_)
    · rw [hy]; rfl
    · exact hy
  · have hmay : s.rechallengeMayStart b = true := by simp [State.rechallengeMayStart, hd, hw, hc, hk, State.slotEnabled, hs]
    refine ⟨_, rfl, rejectsBay_together (v := y) ((hstart hmay).trans (if_neg hs)) (by rw [hy]; rfl) hyd
      (serialRead_congr fun d => ?_) (by rw [hy]; rfl) (by rw [hy]; rfl) (by rw [hy]; rfl)⟩
    by_cases hd : d = b
    · rw [hd, hyb]
    · rw [hyd d hd]

/-! ### The parts of a withdrawal (R16) -/

/-- R46: the transaction in progress of the bay is aborted. -/
theorem abortTransaction_only (s : State) (b : Bay) : ∃ bs fs,
    s.abortTransaction b = { s with buses := bs, notice := { s.notice with faults := fs } } ∧
    (∀ r, (s.bus (busOf b)).current = some r → r.bay = b →
      bs[busOf b] = idleBus (s.bus (busOf b)) (some 1) ∧ fs = joinFaults s.notice.faults (recordFor s (busOf b) r .aborted)) ∧
    ((∀ r, (s.bus (busOf b)).current = some r → r.bay ≠ b) → bs = s.buses ∧ fs = s.notice.faults) := by
  unfold State.abortTransaction
  cases hc : (s.bus (busOf b)).current with
  | none => exact ⟨s.buses, s.notice.faults, rfl, fun r h => (nomatch h), fun _ => ⟨rfl, rfl⟩⟩
  | some r =>
    by_cases hb : r.bay = b
    · refine ⟨_, joinFaults s.notice.faults (recordFor s (busOf b) r .aborted), if_pos hb, fun r' h _ => ?_,
        fun h => absurd hb (h r rfl)⟩
      cases h
      exact ⟨upd_get_same s.buses (busOf b) _, rfl⟩
    · exact ⟨s.buses, s.notice.faults, if_neg hb, fun r' h hb' => by cases h; exact absurd hb' hb, fun _ => ⟨rfl, rfl⟩⟩

/-- R95: an ADVANCE still posted leaves the account's amounts. -/
theorem dropPostedAdvance_only (s : State) (b : Bay) : ∃ g, s.dropPostedAdvance b = { s with accounts := upd s.accounts b g } ∧
    (∀ a, (g a).live = a.live ∧ (g a).pending = a.pending) ∧ ((s.port b).posted = none → ∀ a, g a = a) := by
  have same : s = { s with accounts := upd s.accounts b id } := by rw [upd_id _ _ _ rfl]
  unfold State.dropPostedAdvance
  split
  · rename_i q hq
    split
    · exact ⟨_, rfl, fun _ => ⟨rfl, rfl⟩, fun h => (nomatch hq.symm.trans h)⟩
    · exact ⟨id, same, fun _ => ⟨rfl, rfl⟩, fun _ _ => rfl⟩
  · exact ⟨id, same, fun _ => ⟨rfl, rfl⟩, fun _ _ => rfl⟩

/-- The bay's bus, port, context and jobs are given up, its account not yet closed. -/
def parted (s : State) (b : Bay) : State :=
  ((((s.abortTransaction b).dropPostedAdvance b).withdrawPosted b).closeContext b).modDigest fun d => d.dropJob b

theorem parted_only (s : State) (b : Bay) : ∃ bs fs g, parted s b = { s with
      ports := upd s.ports b fun _ => Port.cleared, buses := bs, notice := { s.notice with faults := fs }
      accounts := upd s.accounts b g
      digest := { s.digest.dropJob b with contexts := upd s.digest.contexts b fun _ => Context.closed } } ∧
    (∀ r, (s.bus (busOf b)).current = some r → r.bay = b →
      bs[busOf b] = idleBus (s.bus (busOf b)) (some 1) ∧ fs = joinFaults s.notice.faults (recordFor s (busOf b) r .aborted)) ∧
    ((∀ r, (s.bus (busOf b)).current = some r → r.bay ≠ b) → bs = s.buses ∧ fs = s.notice.faults) ∧
    (∀ a, (g a).live = a.live ∧ (g a).pending = a.pending) ∧ ((s.port b).posted = none → ∀ a, g a = a) := by
  obtain ⟨bs, fs, h, h1, h2⟩ := abortTransaction_only s b
  obtain ⟨g, hg, h3, h4⟩ := dropPostedAdvance_only (s.abortTransaction b) b
  refine ⟨bs, fs, g, ?_, h1, h2, h3, fun hp => h4 ?_⟩
  · unfold parted
    rw [hg, h]; rfl
  · rw [h]; exact hp

/-- The withdrawn bay, its requests not yet failed. -/
def withdrawn (s : State) (b : Bay) : State :=
  (((((parted s b).closeWithLiability b).unbind b).modBay b fun r => BayRec.cleared r.expectedClass).modOrders b fun _ => []).raise
    .withdrawn b

theorem withdraw_eq (s : State) (b : Bay) : s.withdraw b = (withdrawn s b).settleWaits b failedEnding := rfl

/-- A withdrawal, by field. -/
theorem withdrawn_only (s : State) (b : Bay) : ∃ bs fs a t v l q j c, withdrawn s b = { s with
      bays := upd s.bays b fun r => BayRec.cleared r.expectedClass
      ports := upd s.ports b fun _ => Port.cleared, buses := bs, orders := upd s.orders b fun _ => []
      notice := { s.notice with
        faults := fs
        sources := upd v NoticeKind.withdrawn.index fun x => { x with bays := x.bays ||| (1#12 <<< b.val) } }
      accounts := a, refill := { s.refill with table := t }
      digest := { s.digest.dropJob b with contexts := upd s.digest.contexts b fun _ => Context.closed }
      journal := { s.journal with appendSet := j, copyStale := c }
      link := l, dispatcher := { s.dispatcher with queue := q } } ∧
    (∀ r, (s.bus (busOf b)).current = some r → r.bay = b →
      bs[busOf b] = idleBus (s.bus (busOf b)) (some 1) ∧ fs = joinFaults s.notice.faults (recordFor s (busOf b) r .aborted)) ∧
    ((∀ r, (s.bus (busOf b)).current = some r → r.bay ≠ b) → bs = s.buses ∧ fs = s.notice.faults) ∧
    ((s.account b).live = true → a[b] = Account.cold) ∧
    ((s.account b).live = false → a[b].pending = (s.account b).pending) ∧
    SourcesOnly ledgerKinds s.notice.sources v := by
  obtain ⟨bs, fs, g, h, h1, h2, hg, -⟩ := parted_only s b
  have hacc : (parted s b).account b = g (s.account b) := by rw [h]; exact upd_get_same s.accounts b g
  obtain ⟨a, t, v, l, q, j, c, hc, ha, hv⟩ := (parted s b).closeWithLiability_only b
  obtain ⟨t', j', c', hu⟩ := ((parted s b).closeWithLiability b).unbind_only b
  refine ⟨bs, fs, a, t', v, l, q, j', c', ?_, h1, h2, fun hl => ha (by rw [hacc, (hg _).1]; exact hl), fun hl => ?_, ?_⟩
  · unfold withdrawn
    rw [hu, hc, h]
    have hb : upd (upd s.bays b fun r => { r with serial := none }) b (fun r => BayRec.cleared r.expectedClass) =
        upd s.bays b fun r => BayRec.cleared r.expectedClass := upd_upd s.bays b _ _
    rw [← hb]
    rfl
  · have hdead := closeWithLiability_dead (s := parted s b) (b := b) (by rw [hacc, (hg _).1]; exact hl)
    have : a = (parted s b).accounts := by
      have := congrArg State.accounts (hc.symm.trans hdead)
      exact this
    rw [this]
    exact (congrArg Account.pending hacc).trans (hg _).2
  · rw [h] at hv; exact hv

/-- A withdrawal whose account leaves its liability to no other account changes no request before it fails those of the bay. -/
theorem withdrawn_requests (h : onlyAccount s b) :
    (withdrawn s b).dispatcher = s.dispatcher ∧ (withdrawn s b).link = s.link := by
  obtain ⟨bs, fs, g, hp, -, -, hg, -⟩ := parted_only s b
  have honly : onlyAccount (parted s b) b := by
    intro x hx c hc hl hs
    have hread : ∀ d, (parted s b).serialRead d = s.serialRead d := fun d => by rw [hp]; rfl
    have hlive : (parted s b).account c = s.account c := by rw [hp]; exact upd_get_ne s.accounts g hc
    rw [hread] at hx hs
    rw [hlive] at hl
    exact h x hx c hc hl hs
  obtain ⟨hd, hl⟩ := closeWithLiability_alone honly
  obtain ⟨t, j, c, hu⟩ := ((parted s b).closeWithLiability b).unbind_only b
  have hu' : ((((parted s b).closeWithLiability b).unbind b).dispatcher = ((parted s b).closeWithLiability b).dispatcher ∧
      (((parted s b).closeWithLiability b).unbind b).link = ((parted s b).closeWithLiability b).link) := by
    rw [hu]; exact ⟨rfl, rfl⟩
  have kept : ∀ y : State, (((y.modBay b fun r => BayRec.cleared r.expectedClass).modOrders b fun _ => []).raise .withdrawn b).dispatcher =
      y.dispatcher ∧ (((y.modBay b fun r => BayRec.cleared r.expectedClass).modOrders b fun _ => []).raise .withdrawn b).link =
      y.link := fun _ => ⟨rfl, rfl⟩
  have hp' : (parted s b).dispatcher = s.dispatcher ∧ (parted s b).link = s.link := by rw [hp]; exact ⟨rfl, rfl⟩
  unfold withdrawn
  exact ⟨(kept _).1.trans (hu'.1.trans (hd.trans hp'.1)), (kept _).2.trans (hu'.2.trans (hl.trans hp'.2))⟩

/-- What fails the requests of a bay is read off the queue and the line alone. -/
theorem failsWaits_congr {s w z : State} {code : Byte} (hd : w.dispatcher = s.dispatcher) (hl : w.link = s.link)
    (h : failsWaits w z b code) : failsWaits s z b code := by
  have hk : ∀ (rs : List Reply) (x y : State), x.link = y.link → (rs.foldl placing x).link = (rs.foldl placing y).link := by
    intro rs
    induction rs with
    | nil => exact fun _ _ h => h
    | cons r rs ih => exact fun x y h => ih _ _ (by rw [placing_link, placing_link, h])
  intro hu
  have hu' : tagsUnique w := by unfold tagsUnique at hu ⊢; rwa [hd]
  obtain ⟨h1, os, h2, h3⟩ := h hu'
  rw [hd] at h1 h2
  exact ⟨h1, os, h2, h3.trans (hk _ _ _ hl)⟩

theorem exec_presenceDrop (h1 : (s.bay b).state ≠ .vacant) (h2 : (s.bay b).state ≠ .settling) :
    exec (.presenceDrop b) s = .next ((s.setPresence b false).together fun t => t.withdraw b) := by
  change Host.Outcome.next (match (s.bay b).state with
    | .vacant => s.setPresence b false
    | .settling => (s.setPresence b false).leaveSettling b
    | _ => (s.setPresence b false).together fun t => t.withdraw b) = _
  generalize (s.bay b).state = x at h1 h2
  cases x <;> first | exact absurd rfl h1 | exact absurd rfl h2 | rfl

/-- Settles O12: in a state past SETTLING the drop is a withdrawal, read off its parts. -/
theorem presenceDropWithdrawsTheBay : Obligations.PresenceDropWithdrawsTheBay := by
  intro s b
  refine ⟨fun h => ?_, fun h => ?_, fun h1 h2 => ?_⟩
  · change Host.Outcome.next (match (s.bay b).state with
      | .vacant => s.setPresence b false
      | .settling => (s.setPresence b false).leaveSettling b
      | _ => (s.setPresence b false).together fun t => t.withdraw b) = _
    rw [h]; rfl
  · change Host.Outcome.next (match (s.bay b).state with
      | .vacant => s.setPresence b false
      | .settling => (s.setPresence b false).leaveSettling b
      | _ => (s.setPresence b false).together fun t => t.withdraw b) = _
    rw [h]; rfl
  · obtain ⟨w, hw⟩ : ∃ w, w = s.setPresence b false := ⟨_, rfl⟩
    obtain ⟨bs, fs, a, t, v, l, q, j, c, h, hb1, hb2, ha1, ha2, hv⟩ := withdrawn_only w b
    obtain ⟨l', q', hset⟩ := State.settleWaits_only (withdrawn w b) b failedEnding
    obtain ⟨r, hr⟩ : ∃ r, r = w.withdraw b := ⟨_, rfl⟩
    have hrw : r = { withdrawn w b with link := l', dispatcher := { (withdrawn w b).dispatcher with queue := q' } } := by
      rw [hr, withdraw_eq, hset]
    rw [h] at hrw
    have hacc : r.account b = a[b] := by rw [hrw]; rfl
    have hwacc : w.account b = s.account b := by rw [hw]; rfl
    have hwbus : ∀ n, w.bus n = s.bus n := fun n => by rw [hw]; rfl
    have hwfaults : w.notice.faults = s.notice.faults := by rw [hw]; rfl
    have hwrec : ∀ x, recordFor w (busOf b) x .aborted = recordFor s (busOf b) x .aborted := fun x => by rw [hw]; rfl
    rw [hwacc] at ha1 ha2
    simp only [hwbus, hwfaults, hwrec] at hb1 hb2
    refine ⟨_, (exec_presenceDrop h1 h2).trans (congrArg (fun w : State => Host.Outcome.next (w.together fun t => t.withdraw b)) hw.symm),
      ?_, ?_, ?_, ?_, ?_, fun hl => ?_, ?_, fun x hx hxb => ⟨?_, ?_⟩, fun hx => ⟨?_, ?_⟩, fun d hd => ⟨?_, ?_, ?_, ?_⟩, ?_, fun honly => ?_,
      ?_, ?_, ?_⟩
    · rw [State.together_presence, ← hr, hrw, hw]; rfl
    · rw [State.bay_together, ← hr, hrw, hw]; exact upd_get_same s.bays b fun r => BayRec.cleared r.expectedClass
    · rw [State.port_together, ← hr, hrw]; exact upd_get_same w.ports b fun _ => Port.cleared
    · rw [State.context_together, ← hr, hrw]; exact upd_get_same w.digest.contexts b fun _ => Context.closed
    · rw [State.markOrders_together, ← hr, hrw]; exact upd_get_same w.orders b fun _ => []
    · rw [State.account_together, ← hr, hacc, ha1 hl]
    · rw [State.source_together, ← hr, hrw]
      refine (upd_get_same v NoticeKind.withdrawn.index fun x => { x with bays := x.bays ||| (1#12 <<< b.val) }).trans ?_
      rw [hv .withdrawn (by decide), hw]; rfl
    · rw [State.bus_together, ← hr, hrw]; exact (hb1 x hx hxb).1
    · rw [State.together_notice, ← hr, hrw]; exact (hb1 x hx hxb).2
    · rw [State.together_buses, ← hr, hrw]; exact (hb2 hx).1.trans (by rw [hw]; rfl)
    · rw [State.together_notice, ← hr, hrw]; exact (hb2 hx).2
    · rw [State.bay_together, ← hr, hrw, hw]; exact upd_get_ne s.bays (fun r => BayRec.cleared r.expectedClass) hd
    · rw [State.port_together, ← hr, hrw, hw]; exact upd_get_ne s.ports (fun _ => Port.cleared) hd
    · rw [State.context_together, ← hr, hrw, hw]; exact upd_get_ne s.digest.contexts (fun _ => Context.closed) hd
    · rw [State.markOrders_together, ← hr, hrw, hw]; exact upd_get_ne s.orders (fun _ => []) hd
    · rw [State.account_together, ← hr, hacc]
      cases hl : (s.account b).live with
      | true => rw [ha1 hl]; rfl
      | false => exact ha2 hl
    · have honly' : onlyAccount w b := by rw [hw]; exact honly
      have hreq : w.dispatcher = s.dispatcher ∧ w.link = s.link := by rw [hw]; exact ⟨rfl, rfl⟩
      obtain ⟨hd, hlk⟩ := withdrawn_requests honly'
      have hbay : (withdrawn w b).bay b = BayRec.cleared (w.bay b).expectedClass := by
        rw [h]; exact upd_get_same w.bays b fun r => BayRec.cleared r.expectedClass
      have hf := failsWaits_together (s := w) (u := withdrawn w b) (f := fun t => t.withdraw b) (b := b) (code := 0x00#8)
        (by rw [withdraw_eq]) (by rw [withdraw_eq]) (congrArg Account.pending (settleWaits_account _ _ _)) (settleWaits_bay _ _ _)
        hd hlk (by rw [hbay]; rfl)
      exact failsWaits_congr hreq.1 hreq.2 hf
    · rw [State.together_supply, ← hr, hrw, hw]; rfl
    · rw [State.together_journal, ← hr, hrw, hw]; rfl
    · rw [State.together_digest, ← hr, hrw, hw]; rfl

/-- Settles O13: the closing account's liability goes to the entry, which is then unbound. -/
theorem withdrawalMovesTheLiability : Obligations.WithdrawalMovesTheLiability := by
  intro s b x e h1 h2 hpost hlive hx he hother
  obtain ⟨w, hw⟩ : ∃ w, w = s.setPresence b false := ⟨_, rfl⟩
  obtain ⟨bs, fs, g, hp, -, -, -, hg⟩ := parted_only w b
  have hgid : g = id := funext (hg (by rw [hw]; exact hpost))
  subst hgid
  rw [upd_id w.accounts b id rfl] at hp
  obtain ⟨y, hy⟩ : ∃ y, y = parted w b := ⟨_, rfl⟩
  rw [← hy] at hp
  have hacc : ∀ d, y.account d = s.account d := fun d => by rw [hp, hw]; rfl
  have hread : ∀ d, y.serialRead d = s.serialRead d := fun d => by rw [hp, hw]; rfl
  have hent : ∀ z, y.entry z = s.entry z := fun z => by rw [hp, hw]; rfl
  have hser : (y.bay b).serial = (s.bay b).serial := by rw [hp, hw]; rfl
  have hr : (y.modAccount b fun _ => Account.cold).receiver x = none := by
    refine receiver_alone fun c hc hs => ?_
    rw [State.account_modAccount] at hc
    by_cases hb : c = b
    · rw [if_pos hb] at hc; exact nomatch hc
    · rw [if_neg hb, hacc] at hc
      have hcs : s.serialRead c = some x := (hread c).symm.trans hs
      rw [hother c hb hcs] at hc
      exact Bool.false_ne_true hc
  have hclose : y.closeWithLiability b = ((y.modAccount b fun _ => Account.cold).modEntry x fun e =>
      e.takeLiability (s.account b).liability).joinSet x := by
    unfold State.closeWithLiability; dsimp only
    rw [hacc, if_pos hlive, show (y.modAccount b fun _ => Account.cold).serialRead b = some x from (hread b).trans hx]; dsimp only
    exact handLiability_alone hr
  have hafter : (y.closeWithLiability b).entry x = some (e.takeLiability (s.account b).liability) := by
    rw [hclose, entry_joinSet]
    refine (State.entry_modEntry (y.modAccount b fun _ => Account.cold) x
      (fun e => e.takeLiability (s.account b).liability) fun _ => rfl).trans ?_
    change (y.entry x).map _ = _
    rw [hent, he]; rfl
  have hserial : ((y.closeWithLiability b).bay b).serial = (s.bay b).serial := by
    obtain ⟨a, t, v, l, q, j, c, h, -⟩ := y.closeWithLiability_only b
    rw [← hser, h]; rfl
  refine ⟨_, exec_presenceDrop h1 h2, ?_⟩
  rw [State.entry_together, ← hw, withdraw_eq]
  obtain ⟨l, q, hset⟩ := State.settleWaits_only (withdrawn w b) b failedEnding
  have hfinal : ((withdrawn w b).settleWaits b failedEnding).entry x = ((y.closeWithLiability b).unbind b).entry x := by
    rw [hset, hy]; rfl
  rw [hfinal, unbind_entry, hafter, hserial]
  have hdoubt : (e.takeLiability (s.account b).liability).doubt = if 0 < (s.account b).inFlight then
      some { base := (s.account b).committed, amount := (s.account b).inFlight } else e.doubt := by
    unfold HistoryEntry.takeLiability Account.liability
    by_cases hi : 0 < (s.account b).inFlight
    · simp only [if_pos hi]
    · simp only [if_neg hi]
  rw [← hdoubt]
  by_cases hs : (s.bay b).serial = some x
  · rw [if_pos hs, Option.map_some, if_pos hs]; rfl
  · rw [if_neg hs, Option.map_some, if_neg hs]; rfl

end Sys2Proof.Machine
end

section
/-! PROOF. The Retention Controller's shared steps: DEGRADED, the beginning of an erase, and the check of compaction (R149 to R151). -/

namespace Sys2Proof.Machine

open Sys2Proof.Safety

variable {s u : State} {x y : Sector}

/-! ### DEGRADED and erases (R150, R151) -/

theorem degrade_of_normal (h : s.journal.mode = .normal) : s.degrade = degraded s := by
  unfold State.degrade
  rw [if_neg (by rw [h]; exact fun k => nomatch k)]
  rfl

theorem degrade_of_degraded (h : s.journal.mode = .degraded) : s.degrade = s := by
  unfold State.degrade
  rw [if_pos h]

theorem mode_cases (m : JournalMode) : m = .normal ∨ m = .degraded := by
  cases m
  · exact .inl rfl
  · exact .inr rfl

theorem compactionErase_begins (h : s.supply.saving = false) (x : Sector) : s.compactionErase x = eraseBegun s x := by
  unfold State.compactionErase
  rw [if_neg (by rw [h]; exact Bool.false_ne_true)]
  rfl

theorem compactionErase_held (h : s.supply.saving = true) (x : Sector) :
    s.compactionErase x = { s with journal := { s.journal with compaction := .eraseHeld x } } := by
  unfold State.compactionErase
  rw [if_pos h]
  rfl

theorem saving_false (h : s.supply.state = .normal ∨ s.supply.state = .starting) : s.supply.saving = false := by
  unfold Supply.saving
  rcases h with h | h <;> rw [h] <;> rfl

theorem saving_true (h : s.supply.state = .save ∨ s.supply.state = .expired) : s.supply.saving = true := by
  unfold Supply.saving
  rcases h with h | h <;> rw [h] <;> rfl

/-! ### The FULL sectors in order of age (R149) -/

/-- A FULL sector that no erase runs on. -/
def isFull (s : State) (x : Sector) : Prop := (s.sector x).state = .full ∧ (s.sector x).erasing = none

/-- The sequence number a sector's age is. -/
def age (s : State) (x : Sector) : Nat := (s.sector x).sequence.getD 0

theorem mem_insertByAge (j : Journal) (n : Nat) (x y : Sector) (l : List Sector) :
    y ∈ Journal.fullByAge.insertByAge j n x l ↔ y = x ∨ y ∈ l := by
  induction l with
  | nil => simp [Journal.fullByAge.insertByAge]
  | cons z l ih =>
    unfold Journal.fullByAge.insertByAge
    split
    · simp
    · rw [List.mem_cons, ih, List.mem_cons]
      tauto

theorem sorted_insertByAge (j : Journal) (x : Sector) (l : List Sector)
    (h : l.Pairwise fun a b => j.sectors[a].sequence.getD 0 ≤ j.sectors[b].sequence.getD 0) :
    (Journal.fullByAge.insertByAge j (j.sectors[x].sequence.getD 0) x l).Pairwise fun a b =>
      j.sectors[a].sequence.getD 0 ≤ j.sectors[b].sequence.getD 0 := by
  induction l with
  | nil => exact List.pairwise_singleton _ _
  | cons z l ih =>
    obtain ⟨hz, hl⟩ := List.pairwise_cons.1 h
    unfold Journal.fullByAge.insertByAge
    split
    · rename_i hle
      refine List.pairwise_cons.2 ⟨fun a ha => ?_, h⟩
      rcases List.mem_cons.1 ha with rfl | ha
      · exact hle
      · exact hle.trans (hz a ha)
    · rename_i hle
      refine List.pairwise_cons.2 ⟨fun a ha => ?_, ih hl⟩
      rcases (mem_insertByAge j _ x a l).1 ha with rfl | ha
      · exact (Nat.lt_of_not_le hle).le
      · exact hz a ha

theorem mem_allSectors (x : Sector) : x ∈ allSectors := by revert x; decide

theorem fullByAge_sorted (j : Journal) :
    j.fullByAge.Pairwise fun a b => j.sectors[a].sequence.getD 0 ≤ j.sectors[b].sequence.getD 0 := by
  unfold Journal.fullByAge
  generalize allSectors.filter _ = l
  induction l with
  | nil => exact List.Pairwise.nil
  | cons z l ih => exact sorted_insertByAge j z _ ih

theorem mem_fullByAge (s : State) (x : Sector) : x ∈ s.journal.fullByAge ↔ isFull s x := by
  have key : ∀ l : List Sector, x ∈ l.foldr (fun x acc =>
      Journal.fullByAge.insertByAge s.journal (s.journal.sectors[x].sequence.getD 0) x acc) [] ↔ x ∈ l := by
    intro l
    induction l with
    | nil => exact Iff.rfl
    | cons z l ih => rw [List.foldr_cons, mem_insertByAge, ih, List.mem_cons]
  unfold Journal.fullByAge
  rw [key, List.mem_filter]
  simp [mem_allSectors, isFull, State.sector]

/-- The first of a list in order is its one least element. -/
theorem head_of_least {α : Type} {f : α → Nat} {l : List α} {x : α} (h : l.Pairwise fun a b => f a ≤ f b) (hx : x ∈ l)
    (hleast : ∀ y ∈ l, y ≠ x → f x < f y) : l.head? = some x := by
  cases l with
  | nil => exact nomatch hx
  | cons z l =>
    by_cases hz : z = x
    · rw [hz]; rfl
    · have h1 := hleast z (List.mem_cons_self ..) hz
      have h2 := (List.pairwise_cons.1 h).1 x ((List.mem_cons.1 hx).resolve_left (Ne.symm hz))
      omega

/-- The oldest FULL sector with a property (R149). -/
def isOldest (s : State) (p : Sector → Prop) (x : Sector) : Prop :=
  isFull s x ∧ p x ∧ ∀ y, y ≠ x → isFull s y → p y → age s x < age s y

theorem fullByAge_head (h : isOldest s (fun _ => True) x) : s.journal.fullByAge.head? = some x :=
  head_of_least (f := age s) (fullByAge_sorted s.journal) ((mem_fullByAge s x).2 h.1)
    fun y hy hne => h.2.2 y hne ((mem_fullByAge s y).1 hy) trivial

theorem fullByAge_find {p : Sector → Bool} (h : isOldest s (fun z => p z = true) x) : s.journal.fullByAge.find? p = some x := by
  rw [← List.head?_filter]
  refine head_of_least (f := age s) ((fullByAge_sorted s.journal).filter _) (List.mem_filter.2 ⟨(mem_fullByAge s x).2 h.1, h.2.1⟩)
    fun y hy hne => ?_
  obtain ⟨hm, hp⟩ := List.mem_filter.1 hy
  exact h.2.2 y hne ((mem_fullByAge s y).1 hm) hp

/-! ### The check of compaction (R149) -/

/-- What the compaction of a sector begins in NORMAL. -/
def compactionBegun (s : State) (x : Sector) : State :=
  if s.copiesNeeded x = [] then eraseBegun s x
  else { s with journal := { s.journal with compaction := .copying x (s.copiesNeeded x) } }

theorem compact_eq (h : s.supply.saving = false) (x : Sector) : s.compact x = compactionBegun s x := by
  unfold State.compact compactionBegun
  cases hc : s.copiesNeeded x with
  | nil => rw [if_pos rfl]; exact compactionErase_begins h x
  | cons y ys => rw [if_neg (List.cons_ne_nil y ys)]; rfl

theorem checkCompaction_of (h : s.compactionMayStart = true) {x : Sector} (hx : s.compactionChoice = some x)
    (hn : s.supply.saving = false) : s.checkCompaction = compactionBegun s x := by
  unfold State.checkCompaction
  rw [if_pos h, hx]
  exact compact_eq hn x

theorem compactionChoice_none (h : ∀ x, ¬isFull s x) : s.compactionChoice = none := by
  have hnil : s.journal.fullByAge = [] := List.eq_nil_iff_forall_not_mem.2 fun x hx => h x ((mem_fullByAge s x).1 hx)
  unfold State.compactionChoice
  rw [hnil]

theorem compactionChoice_first {x : Sector} (hx : s.journal.fullByAge.head? = some x)
    (h : s.copiesFit (s.copiesNeeded x) = true ∨ s.journal.mayOpen s.supply.state = true) : s.compactionChoice = some x := by
  obtain ⟨rest, hl⟩ := List.head?_eq_some_iff.1 hx
  unfold State.compactionChoice
  rw [hl]; dsimp only
  rw [if_pos (by simpa using h)]

theorem compactionChoice_find {x : Sector} (hx : s.journal.fullByAge.head? = some x)
    (h1 : s.copiesFit (s.copiesNeeded x) = false) (h2 : s.journal.mayOpen s.supply.state = false) :
    s.compactionChoice = some ((s.journal.fullByAge.find? fun y => (s.copiesNeeded y).isEmpty).getD x) := by
  obtain ⟨rest, hl⟩ := List.head?_eq_some_iff.1 hx
  unfold State.compactionChoice
  rw [hl]; dsimp only
  rw [if_neg (by simp [h1, h2])]
  cases (x :: rest).find? fun y => (s.copiesNeeded y).isEmpty <;> rfl

/-- R149: the check of compaction. -/
theorem checkCompaction_compacts (u : State) : compacts u u.checkCompaction := by
  refine ⟨fun h => ?_, fun hidle hmode hsup hcount x hx => ?_⟩
  · by_cases hfull : ∀ x, ¬isFull u x
    · have hnone := compactionChoice_none hfull
      unfold State.checkCompaction
      rw [hnone]
      split <;> rfl
    · have hmay : u.compactionMayStart = false := by
        unfold State.compactionMayStart
        rcases h with h | h | h | h | h | h
        · simp [h]
        · simp [h]
        · simp [h]
        · simp [h]
        · cases hs : u.supply.state <;> simp <;> omega
        · exact absurd h hfull
      unfold State.checkCompaction
      rw [if_neg (by rw [hmay]; exact Bool.false_ne_true)]
  · have hsaving : u.supply.saving = false := saving_false (.inl hsup)
    have hmay : u.compactionMayStart = true := by simp [State.compactionMayStart, hidle, hmode, hsup, hcount]
    have hopen : u.journal.mayOpen u.supply.state = decide (2 ≤ u.journal.erasedCount) := by
      unfold Journal.mayOpen
      rw [hmode, hsup]; rfl
    have hhead := fullByAge_head (s := u) (x := x) hx
    have hbegun : ∀ z, u.compactionChoice = some z → u.checkCompaction = compactionBegun u z := fun z hz =>
      checkCompaction_of hmay hz hsaving
    refine ⟨fun h => ?_, fun hfit hlt => ⟨fun y hy => ?_, fun hall => ?_⟩⟩
    · refine hbegun x (compactionChoice_first hhead (h.imp (fun h => ?_) fun h => ?_))
      · exact decide_eq_true h
      · rw [hopen]; exact decide_eq_true (by omega)
    all_goals
      have hchoice := compactionChoice_find hhead (decide_eq_false hfit) (hopen.trans (decide_eq_false (by omega)))
    · have hfind : u.journal.fullByAge.find? (fun y => (u.copiesNeeded y).isEmpty) = some y := by
        obtain ⟨h1, h2, h3⟩ := hy
        exact fullByAge_find ⟨h1, List.isEmpty_iff.2 h2, fun z hz hf hp => h3 z hz hf (List.isEmpty_iff.1 hp)⟩
      rw [hfind] at hchoice
      exact hbegun y hchoice
    · have hfind : u.journal.fullByAge.find? (fun y => (u.copiesNeeded y).isEmpty) = none :=
        List.find?_eq_none.2 fun z hz hc => hall z ((mem_fullByAge u z).1 hz) (List.isEmpty_iff.1 hc)
      rw [hfind] at hchoice
      exact hbegun x hchoice

end Sys2Proof.Machine
end

section
/-! PROOF. O10, O30 and O31: the end of STARTING, the entry into SAVE and the return of the supply. -/

namespace Sys2Proof.Machine

open Sys2Proof.Safety

variable {s u : State}

/-! ### A change of every bay's own record -/

/-- The bays' records, each changed by its bay's function. -/
def eachBay (g : Bay → BayRec → BayRec) (v : Vector BayRec 12) : Vector BayRec 12 := Vector.ofFn fun b => g b v[b]

theorem eachBay_get (g : Bay → BayRec → BayRec) (v : Vector BayRec 12) (b : Bay) : (eachBay g v)[b] = g b v[b] :=
  Vector.getElem_ofFn _

/-- An act at every bay in turn that changes no more than the bay's own record. -/
theorem forBays_modBay (f : Bay → State → State) (g : Bay → BayRec → BayRec)
    (hf : ∀ b v, f b { s with bays := v } = { s with bays := upd v b (g b) }) :
    forBays f s = { s with bays := eachBay g s.bays } := by
  have key : ∀ (l : List Bay), l.Nodup → ∀ v : Vector BayRec 12, l.foldl (fun s b => f b s) { s with bays := v } =
      { s with bays := eachBay (fun b r => if b ∈ l then g b r else r) v } := by
    intro l
    induction l with
    | nil =>
      intro _ v
      have : eachBay (fun b r => if b ∈ ([] : List Bay) then g b r else r) v = v := by
        ext i hi
        exact eachBay_get _ v ⟨i, hi⟩
      rw [this]; rfl
    | cons c l ih =>
      intro hn v
      obtain ⟨hc, hl⟩ := List.nodup_cons.1 hn
      rw [List.foldl_cons, hf c v, ih hl]
      refine congrArg (fun v => ({ s with bays := v } : State)) ?_
      ext i hi
      have h1 := eachBay_get (fun b r => if b ∈ l then g b r else r) (upd v c (g c)) ⟨i, hi⟩
      have h2 := eachBay_get (fun b r => if b ∈ c :: l then g b r else r) v ⟨i, hi⟩
      refine h1.trans (.trans ?_ h2.symm)
      rw [upd_get]
      by_cases h : (⟨i, hi⟩ : Bay) = c
      · rw [if_pos h, if_neg (by rw [h]; exact hc), if_pos (by rw [h]; exact List.mem_cons_self ..), h]
      · rw [if_neg h]
        exact if_congr (by rw [List.mem_cons, or_iff_right h]) rfl rfl
  have hall : eachBay (fun b r => if b ∈ allBays then g b r else r) s.bays = eachBay g s.bays := by
    ext i hi
    have h1 := eachBay_get (fun b r => if b ∈ allBays then g b r else r) s.bays ⟨i, hi⟩
    have h2 := eachBay_get g s.bays ⟨i, hi⟩
    exact h1.trans ((if_pos (mem_allBays _)).trans h2.symm)
  exact (key allBays nodup_allBays s.bays).trans (congrArg (fun v => ({ s with bays := v } : State)) hall)

/-- An act at a bay on a condition on its own record. -/
theorem modBay_if (v : Vector BayRec 12) (b : Bay) (p : BayRec → Prop) [DecidablePred p] (f : BayRec → BayRec) :
    (if p v[b] then upd v b f else v) = upd v b fun r => if p r then f r else r := by
  split
  · rename_i h
    exact upd_congr v b (if_pos h).symm
  · rename_i h
    exact (upd_id v b _ (if_neg h)).symm

/-! ### The end of STARTING (R137, R3) -/

/-- A bay's record once its presence line is sampled (R3). -/
def sampled (p : Vector Bool 12) (b : Bay) (r : BayRec) : BayRec :=
  if p[b] = true ∧ r.state = .vacant then { r with state := .settling, settleTimer := some 50, settled := false } else r

theorem samplePresence_eq (s : State) : s.samplePresence = { s with bays := eachBay (sampled s.presence) s.bays } := by
  refine forBays_modBay _ _ fun b v => ?_
  have h := modBay_if v b (fun r => s.presence[b] = true ∧ r.state = .vacant) fun r =>
    { r with state := .settling, settleTimer := some 50, settled := false }
  unfold sampled
  rw [← h]
  change (if (s.presence[b] && decide (v[b].state = .vacant)) = true then _ else _) = _
  by_cases hc : s.presence[b] = true ∧ v[b].state = .vacant
  · rw [if_pos (by simpa using hc), if_pos hc]; rfl
  · rw [if_neg (by simpa using hc), if_neg hc]

theorem leaveStarting_leaves (u : State) : leavesStarting u u.leaveStarting := by
  have hmay : u.mayLeaveStarting = true ↔ u.supply.state = .starting ∧ u.journal.startupDone = true ∧ u.digest.slotsRead = true ∧
      u.supply.warn = false ∧ u.supply.crit = false := by
    simp [State.mayLeaveStarting, and_assoc]
  unfold State.leaveStarting
  refine ⟨fun h => ?_, fun h => if_neg fun k => h (hmay.1 k)⟩
  rw [if_pos (hmay.2 h), samplePresence_eq]
  exact ⟨rfl, fun b => eachBay_get (sampled u.presence) u.bays b⟩

/-- Settles O10: the start-up is over, and its completion leads to the check of the end of STARTING. -/
theorem startupFinishEndsStarting : Obligations.StartupFinishEndsStarting := by
  intro s hsup hdone hmode hcomp hsectors finished
  have hinv : s.journal.invalidErasesRun = false := by
    refine List.any_eq_false.2 fun x _ => ?_
    exact fun k => (hsectors x).1 (of_decide_eq_true k)
  have hruns : (allSectors.all fun x => !s.eraseRuns x) = true := by
    refine List.all_eq_true.2 fun x _ => ?_
    unfold State.eraseRuns
    rw [(hsectors x).2]; rfl
  have hexec : ∀ v, s.startupOver = true → s.startupComplete = v → exec .startupFinish s = .next v.leaveStarting := fun v h hv => by
    change Host.Outcome.next (if s.startupOver = true then s.startupComplete.leaveStarting else s) = _
    rw [if_pos h, hv]
  have hover : (2 ≤ s.journal.erasedCount ∨ s.journal.fullByAge = []) → s.startupOver = true := fun h => by
    unfold State.startupOver
    rw [hinv, hruns]
    rcases h with h | h <;> simp [hsup, hdone, hmode, hcomp, h]
  by_cases hcount : 2 ≤ s.journal.erasedCount
  · have hc : s.startupComplete = finished s := by
      unfold State.startupComplete
      rw [if_neg (Nat.not_lt.2 hcount)]; rfl
    exact ⟨_, hexec _ (hover (.inl hcount)) hc, fun _ => leaveStarting_leaves _, fun h => absurd hcount (Nat.not_le.2 h)⟩
  · by_cases hfull : ∀ x : Sector, (s.sector x).state ≠ .full
    · have hnil : s.journal.fullByAge = [] := List.eq_nil_iff_forall_not_mem.2 fun x hx => hfull x ((mem_fullByAge s x).1 hx).1
      have hc : s.startupComplete = finished (degraded s) := by
        unfold State.startupComplete
        rw [if_pos (Nat.lt_of_not_le hcount), degrade_of_normal hmode]; rfl
      exact ⟨_, hexec _ (hover (.inr hnil)) hc, fun h => absurd h hcount, fun _ _ => leaveStarting_leaves _⟩
    · exact ⟨_, rfl, fun h => absurd h hcount, fun _ h => absurd h hfull⟩

/-! ### The entry into SAVE (R138, R139, R145) -/

theorem saveBurst_eq (s : State) : s.saveBurst = { s with journal := if s.journal.mode = .degraded then s.journal else
    { s.journal with
      appendSet := s.seatedSerials ++ s.journal.appendSet.filter fun x => !s.seatedSerials.contains x
      copyStale := s.journal.copyStale || s.seatedSerials.any s.journal.copying } } := by
  unfold State.saveBurst
  split <;> rfl

theorem liveMetered_eq (f : Account → Account) :
    (fun a : Account => if a.liveMetered = true then f a else a) = fun a => if a.live = true ∧ a.metering = .metered then f a else a := by
  funext a
  exact if_congr (by simp [Account.liveMetered]) rfl rfl

theorem enterSave_eq (s : State) (ms : Nat) : s.enterSave ms = { s with
    supply := { s.supply with state := .save, deadline := some ms, marginInUse := min s.settings.margin s.settings.budget }
    accounts := s.accounts.map fun a =>
      if a.live = true ∧ a.metering = .metered then { a with drain := { a.drain with save := true } } else a
    notice := { s.notice with
      sources := s.notice.sources.set NoticeKind.saveEntered.index { s.source .saveEntered with flag := true } }
    journal := if s.journal.mode = .degraded then s.journal else
      { s.journal with
        appendSet := s.seatedSerials ++ s.journal.appendSet.filter fun x => !s.seatedSerials.contains x
        copyStale := s.journal.copyStale || s.seatedSerials.any s.journal.copying } } := by
  rw [← liveMetered_eq fun a => { a with drain := { a.drain with save := true } }]
  unfold State.enterSave; dsimp only
  rw [saveBurst_eq]
  rfl

/-- Settles O30: each assertion by the supply's state. -/
theorem supplyLossEntersSave : Obligations.SupplyLossEntersSave := by
  intro s save
  refine ⟨fun h => ⟨?_, fun hw => ?_⟩, fun h => ?_, fun ms h hd => ?_⟩
  · refine congrArg Host.Outcome.next ?_
    unfold State.warnAsserted; dsimp only
    rw [if_pos (show (s.modSupply fun p => { p with warn := true }).supply.state = .normal from h)]
    exact enterSave_eq _ _
  · refine congrArg Host.Outcome.next ?_
    unfold State.critAsserted; dsimp only
    rw [show (s.modSupply fun p => { p with crit := true }).supply.state = .normal from h]; dsimp only
    rw [if_neg (by rw [show (s.modSupply fun p => { p with crit := true }).supply.warn = false from hw]; exact Bool.false_ne_true)]
    exact enterSave_eq _ _
  · refine congrArg Host.Outcome.next ?_
    unfold State.warnAsserted; dsimp only
    rw [if_neg (show ¬(s.modSupply fun p => { p with warn := true }).supply.state = .normal from h)]
    rfl
  · refine congrArg Host.Outcome.next ?_
    unfold State.critAsserted; dsimp only
    rw [show (s.modSupply fun p => { p with crit := true }).supply.state = .save from h]; dsimp only
    have hcut : cutDeadline s.supply.marginInUse s.supply.deadline = some (min ms s.supply.marginInUse) := by rw [hd]; rfl
    rw [← hcut]; rfl

/-! ### The return of the supply (R140, R141) -/

/-- What the return to NORMAL leaves of the journal: its part, with the erase that compaction held begun (R141, R150, R151). -/
def returned (w : State) : State := if w.journal.erasedCount = 0 ∧ w.journal.mode = .normal then degraded w else w

theorem returned_eq (w : State) : (if w.journal.erasedCount = 0 then w.degrade else w) = returned w := by
  unfold returned
  by_cases h0 : w.journal.erasedCount = 0
  · rw [if_pos h0]
    rcases mode_cases w.journal.mode with hm | hm
    · rw [if_pos ⟨h0, hm⟩, degrade_of_normal hm]
    · rw [if_neg (by rw [hm]; exact fun h => nomatch h.2), degrade_of_degraded hm]
  · rw [if_neg h0, if_neg fun h => h0 h.1]

/-- Between `w` and `t` nothing but the journal and the notices changes. -/
def journalOnly (w t : State) : Prop := t = { w with journal := t.journal, notice := t.notice }

theorem journalOnly.trans {w t z : State} (h : journalOnly w t) (k : journalOnly t z) : journalOnly w z := by
  unfold journalOnly at *
  rw [k, h]

theorem checkCompaction_journalOnly (w : State) : journalOnly w w.checkCompaction := by
  have herase : ∀ x, journalOnly w (w.compactionErase x) := fun x => by
    unfold State.compactionErase journalOnly
    split <;> rfl
  unfold State.checkCompaction
  split
  · split
    · unfold State.compact
      split
      · exact herase _
      · exact rfl
    · exact rfl
  · exact rfl

theorem returned_journalOnly (w : State) : journalOnly w (returned w) := by
  unfold returned
  split <;> exact rfl

theorem returned_compaction (w : State) : (∀ x, w.journal.compaction = .eraseHeld x → (returned w).journal.compaction = .eraseHeld x) ∧
    ((∀ x, w.journal.compaction ≠ .eraseHeld x) → ∀ x, (returned w).journal.compaction ≠ .eraseHeld x) := by
  unfold returned
  split
  · unfold degraded withSource
    dsimp only
    cases w.journal.compaction with
    | idle => exact ⟨fun x h => h, fun h => h⟩
    | copying y ys => exact ⟨fun x h => (nomatch h), fun _ x h => nomatch h⟩
    | eraseHeld y => exact ⟨fun x h => h, fun h => h⟩
    | erasing y => exact ⟨fun x h => h, fun h => h⟩
  · exact ⟨fun x h => h, fun h => h⟩

theorem journalReturn_held {w : State} {x : Sector} (h : (returned w).journal.compaction = .eraseHeld x) :
    w.journalReturn = ((returned w).compactionErase x).checkCompaction := by
  unfold State.journalReturn; dsimp only
  rw [returned_eq]
  split
  · rename_i y hy
    cases h.symm.trans hy; rfl
  · rename_i hn
    exact absurd h (hn x)

theorem journalReturn_free {w : State} (h : ∀ x, (returned w).journal.compaction ≠ .eraseHeld x) :
    w.journalReturn = (returned w).checkCompaction := by
  unfold State.journalReturn; dsimp only
  rw [returned_eq]
  split
  · rename_i y hy
    exact absurd hy (h y)
  · rfl

theorem journalReturn_spec (w : State) (hs : w.supply.state = .normal) : journalOnly w w.journalReturn ∧
    (∀ x, w.journal.compaction = .eraseHeld x → w.journalReturn = eraseBegun (returned w) x) ∧
    ((∀ x, w.journal.compaction ≠ .eraseHeld x) → compacts (returned w) w.journalReturn) := by
  have hsaving : (returned w).supply.saving = false := by
    refine saving_false (.inl ?_)
    rw [returned_journalOnly w]; exact hs
  obtain ⟨hheld, hfree⟩ := returned_compaction w
  by_cases h : ∃ x, w.journal.compaction = .eraseHeld x
  · obtain ⟨x, hx⟩ := h
    have hbegun : w.journalReturn = eraseBegun (returned w) x := by
      rw [journalReturn_held (hheld x hx), compactionErase_begins hsaving]
      exact (checkCompaction_compacts (eraseBegun (returned w) x)).1 (.inl fun h => nomatch h)
    refine ⟨?_, fun y hy => ?_, fun hn => absurd hx (hn x)⟩
    · rw [hbegun]
      exact (returned_journalOnly w).trans rfl
    · rw [hx] at hy; cases hy; exact hbegun
  · have hne : ∀ x, (returned w).journal.compaction ≠ .eraseHeld x := hfree fun x hx => h ⟨x, hx⟩
    have hcheck : w.journalReturn = (returned w).checkCompaction := journalReturn_free hne
    rw [hcheck]
    exact ⟨(returned_journalOnly w).trans (checkCompaction_journalOnly _), fun x hx => absurd ⟨x, hx⟩ h,
      fun _ => checkCompaction_compacts _⟩

/-- A bay's record once its identification begins, if it was held settled (R5). -/
def unsettled (r : BayRec) : BayRec :=
  if r.state = .settling ∧ r.settled = true then
    { r with state := .identifying, readAttempts := 0, settleTimer := none, settled := false }
  else r

theorem releaseSettled_eq (s : State) : s.releaseSettled = { s with bays := eachBay (fun _ => unsettled) s.bays } := by
  refine forBays_modBay _ _ fun b v => ?_
  have h := modBay_if v b (fun r => r.state = .settling ∧ r.settled = true) fun r =>
    { r with state := .identifying, readAttempts := 0, settleTimer := none, settled := false }
  unfold unsettled
  rw [← h]
  change (if (decide (v[b].state = .settling) && v[b].settled) = true then _ else _) = _
  by_cases hc : v[b].state = .settling ∧ v[b].settled = true
  · rw [if_pos (by simpa using hc), if_pos hc]; rfl
  · rw [if_neg (by simpa using hc), if_neg hc]

/-- The state at the return to NORMAL before the journal's part (R141, R23). -/
def resumed (s : State) : State := { s with
  supply := { s.supply with state := .normal, deadline := none }
  accounts := s.accounts.map fun a => { a with drain := { a.drain with save := false } }
  bays := (eachBay (fun _ => unsettled) s.bays).map (BayRec.recover s.settings.resume) }

theorem returnToNormal_eq (s : State) : s.returnToNormal = (resumed s).journalReturn := by
  unfold State.returnToNormal; dsimp only
  rw [releaseSettled_eq]
  rfl

theorem resumed_bay (s : State) (b : Bay) : (resumed s).bay b =
    if (s.bay b).state = .settling ∧ (s.bay b).settled = true then
      { s.bay b with state := .identifying, readAttempts := 0, settleTimer := none, settled := false }
    else if s.settings.resume = false ∧ (s.bay b).state = .admitted ∧ (s.bay b).rechallenge = .idle then
      { s.bay b with rechallenge := .waiting, rechallengeTimer := none }
    else s.bay b := by
  have h : (resumed s).bay b = BayRec.recover s.settings.resume (unsettled (s.bay b)) :=
    (Vector.getElem_map _ _).trans (congrArg (BayRec.recover s.settings.resume) (eachBay_get (fun _ => unsettled) s.bays b))
  rw [h]
  unfold unsettled BayRec.recover
  by_cases hs : (s.bay b).state = .settling ∧ (s.bay b).settled = true
  · rw [if_pos hs, if_pos hs, if_neg (by simp)]
  · rw [if_neg hs, if_neg hs]
    exact if_congr (by simp [and_assoc]) rfl rfl

theorem resumed_account (s : State) (b : Bay) :
    (resumed s).account b = { s.account b with drain := { (s.account b).drain with save := false } } :=
  Vector.getElem_map _ _

/-- Settles O31: the deadline, a line with the other still asserted, the return, STARTING and NORMAL. -/
theorem supplyReturnEndsSave : Obligations.SupplyReturnEndsSave := by
  intro s released
  obtain ⟨w, hw⟩ : ∃ w : SupplyLine → State, w = fun l => { s with supply := released l } := ⟨_, rfl⟩
  have hline : ∀ l, exec (.supplyLineDeasserted l) s = .next (if (released l).state = .starting then (w l).leaveStarting
      else if (released l).saving && !(released l).warn && !(released l).crit then (w l).returnToNormal else w l) := fun l => by
    rw [hw]; cases l <;> rfl
  have hstate : ∀ l, (released l).state = s.supply.state := fun l => by cases l <;> rfl
  have hneStarting : s.supply.state = .save ∨ s.supply.state = .expired → ∀ l, ¬(released l).state = .starting := fun h l => by
    rw [hstate l]
    rcases h with h | h <;> rw [h] <;> exact fun k => nomatch k
  refine ⟨fun h => congrArg Host.Outcome.next (if_pos h), fun h => ⟨fun hc => ?_, fun hc => ?_, fun l h1 h2 => ?_⟩,
    fun l => ⟨fun h => ⟨_, (hline l).trans (congrArg Host.Outcome.next (if_pos ((hstate l).trans h))), ?_⟩, fun h => ?_⟩⟩
  · rw [hline, if_neg (hneStarting h .warn), if_neg, hw]
    intro k
    have : (released .warn).crit = true := hc
    simp [this] at k
  · rw [hline, if_neg (hneStarting h .crit), if_neg, hw]
    intro k
    have : (released .crit).warn = true := hc
    simp [this] at k
  · have hne := hneStarting h l
    have hoff : (released l).warn = false ∧ (released l).crit = false := by
      cases l with
      | warn => exact ⟨rfl, h1 rfl⟩
      | crit => exact ⟨h2 rfl, rfl⟩
    have hmargin : (released l).marginInUse = s.supply.marginInUse := by cases l <;> rfl
    have hsav : (released l).saving = true := saving_true (s := { s with supply := released l }) ((hstate l).symm ▸ h)
    have hexec : exec (.supplyLineDeasserted l) s = .next (resumed (w l)).journalReturn := by
      rw [hline, if_neg hne, if_pos (by rw [hsav, hoff.1, hoff.2]; rfl), returnToNormal_eq]
    obtain ⟨honly, hheld, hcheck⟩ := journalReturn_spec (resumed (w l)) rfl
    generalize (resumed (w l)).journalReturn = t at hexec honly hheld hcheck
    have hu : ({ t with journal := s.journal, notice := s.notice } : State) = resumed (w l) := by
      rw [honly, hw]; rfl
    have hreturned : (if s.journal.erasedCount = 0 ∧ s.journal.mode = .normal then degraded (resumed (w l)) else resumed (w l)) =
        returned (resumed (w l)) := by rw [hw]; rfl
    have hcomp : (resumed (w l)).journal.compaction = s.journal.compaction := by rw [hw]; rfl
    refine ⟨t, hexec, ?_, fun b => ?_, fun b => ?_, ⟨fun x hx => ?_, fun hx => ?_⟩, ?_⟩
    · rw [honly]
      change ({ (w l).supply with state := .normal, deadline := none } : Supply) = _
      rw [hw]
      change ({ released l with state := .normal, deadline := none } : Supply) = _
      generalize released l = z at hoff hmargin
      obtain ⟨zs, zd, zw, zc, zm⟩ := z
      obtain ⟨rfl, rfl⟩ := hoff
      cases hmargin; rfl
    · have : t.account b = (resumed (w l)).account b := by rw [honly]; rfl
      rw [this, resumed_account, hw]; rfl
    · have : t.bay b = (resumed (w l)).bay b := by rw [honly]; rfl
      rw [this, resumed_bay, hw]; rfl
    · rw [hu, hreturned]
      exact hheld x (hcomp.trans hx)
    · rw [hu, hreturned]
      exact hcheck fun x => by rw [hcomp]; exact hx x
    · rw [honly, hw]
      exact ⟨rfl, rfl, rfl, rfl, rfl, rfl, rfl⟩
  · rw [hw]; exact leaveStarting_leaves _
  · rw [hline, if_neg (by rw [hstate, h]; exact fun k => nomatch k), if_neg, hw]
    have : (released l).saving = false := saving_false (s := { s with supply := released l }) (.inl ((hstate l).trans h))
    rw [this]; exact Bool.false_ne_true

end Sys2Proof.Machine
end

section
/-! PROOF. O33, O34 and O35: the ends of the journal's writes and erases. -/

namespace Sys2Proof.Machine

open Sys2Proof.Safety

variable {s : State}

/-! ### Bytes written and read back -/

theorem read_writeBytes_inside {m : Memory} (h : m.wf = true) (vs : List Byte) : ∀ (a k : Nat), k < vs.length →
    (m.writeBytes a vs).read (a + k) = vs.getD k 0 := by
  induction vs generalizing m with
  | nil => exact fun a k hk => nomatch hk
  | cons v vs ih =>
    intro a k hk
    have hw := Memory.wf_write h a v
    cases k with
    | zero =>
      refine (Memory.read_writeBytes_outside (m.write a v) vs (.inl (by omega))).trans ?_
      exact Memory.read_write_same h a v
    | succ k =>
      have := ih hw (a + 1) k (Nat.lt_of_succ_lt_succ hk)
      rw [show a + 1 + k = a + (k + 1) by omega] at this
      exact this

theorem readBytes_writeBytes {m : Memory} (h : m.wf = true) (a : Nat) (vs : List Byte) :
    (m.writeBytes a vs).readBytes a vs.length = vs := by
  unfold Memory.readBytes
  refine List.ext_getElem (by simp) fun i h1 h2 => ?_
  rw [List.getElem_map, List.getElem_range, read_writeBytes_inside h vs a i h2, List.getD_eq_getElem _ _ h2]

/-! ### The subjects of a sector (R149) -/

theorem mem_keepLast (x : Serial) (l : List Serial) : x ∈ keepLast l ↔ x ∈ l := by
  induction l with
  | nil => exact Iff.rfl
  | cons y l ih =>
    unfold keepLast
    split
    · rename_i h
      rw [ih, List.mem_cons]
      refine ⟨.inr, fun k => k.elim (fun e => ?_) id⟩
      rw [e]; exact List.contains_iff_mem.1 h
    · rw [List.mem_cons, ih, List.mem_cons]

theorem keepLast_sublist (l : List Serial) : (keepLast l).Sublist l := by
  induction l with
  | nil => exact List.Sublist.slnil
  | cons y l ih =>
    unfold keepLast
    split
    · exact ih.cons y
    · exact ih.cons_cons y

theorem nodup_keepLast (l : List Serial) : (keepLast l).Nodup := by
  induction l with
  | nil => exact List.nodup_nil
  | cons y l ih =>
    unfold keepLast
    split
    · exact ih
    · rename_i h
      exact List.nodup_cons.2 ⟨fun k => h (List.contains_iff_mem.2 ((mem_keepLast y l).1 k)), ih⟩

theorem mem_copiesNeeded (s : State) (x : Sector) (y : Serial) : y ∈ s.copiesNeeded x ↔
    (∃ r ∈ s.journal.recordsIn x, r.serial = y) ∧ newestOf s.journal.newest y = some x ∧ (s.entry y).isSome = true := by
  unfold State.copiesNeeded Journal.subjects
  rw [List.mem_filter, List.mem_filter, mem_keepLast, List.mem_map]
  simp [and_assoc]

/-! ### The ends of an erase (R150) -/

theorem exec_eraseFails {c : Instr} {e : ErrorKind} {x : Sector} (hx : (s.sector x).erasing.isSome = true)
    (h : (c = .eraseDone x (.failure true) ∧ e = .flashError) ∨ (c = .eraseTimeout x true ∧ e = .timeout)) :
    exec c s = .next (s.eraseFailed x e true) := by
  rcases h with ⟨rfl, rfl⟩ | ⟨rfl, rfl⟩ <;> exact congrArg Host.Outcome.next (if_pos hx)

/-- Settles O35: the erase's end, and the check of compaction after it. -/
theorem eraseEndsSetTheSector : Obligations.EraseEndsSetTheSector := by
  refine ⟨fun s x hx _ => ?_, fun s x => ⟨mem_copiesNeeded s x, ?_, ?_⟩⟩
  intro rest
  refine ⟨?_, fun c e h => ?_⟩
  · refine ⟨{ s with journal := { rest with
        flash := s.journal.flash.eraseSector x
        sectors := s.journal.sectors.set x { state := .erased, sequence := none, torn := none, erasing := none } } }, _,
      congrArg Host.Outcome.next (if_pos hx), checkCompaction_compacts _, rfl, fun a => ?_⟩
    by_cases ha : a / 4096 = x.val
    · rw [if_pos ha]; exact Memory.read_eraseSector_same _ ha
    · rw [if_neg ha]; exact Memory.read_eraseSector_other _ ha
  · have hexec := exec_eraseFails hx h
    intro u
    have hfail : s.eraseFailed x e true = if u.journal.usableCount < 3 then u.degrade else u.checkCompaction := rfl
    rw [hfail] at hexec
    refine ⟨fun hn => ⟨_, hexec.trans (congrArg Host.Outcome.next (if_neg (Nat.not_lt.2 hn))), checkCompaction_compacts _⟩,
      fun hn => ⟨fun hm => ?_, fun hm => ?_⟩⟩
    · rw [hexec, if_pos hn, degrade_of_normal (s := u) hm]
    · rw [hexec, if_pos hn, degrade_of_degraded (s := u) hm]
  · exact ((nodup_keepLast _).filter _).filter _
  · exact (List.filter_sublist.trans List.filter_sublist).trans (keepLast_sublist _)

/-! ### Writes that fail (R147, R148) -/

/-- The state in which a failed write is recorded, not yet DEGRADED (R148). -/
def failedWrite (s : State) (y : Sector) (source : RecordSource) (r : JournalRecord) (k : TransactionKind) (p : Phase) (e : ErrorKind)
    (off : Nat) : State := { s with
  notice := { s.notice with faults := joinFaults s.notice.faults (writeFaultRecord k p e (s.journal.failures + 1) y) }
  journal := { (s.journal.modSector y fun z => { z with state := .full, torn := some off }).returnSerial source r.serial with
    room := 0, failures := s.journal.failures + 1, writer := .idle } }

theorem returnSerial_appendSet {j : Journal} (h : j.mode = .normal) (x : Serial) :
    j.returnSerial .appendSet x = { j with appendSet := x :: j.appendSet.filter fun z => z != x } := by
  unfold Journal.returnSerial
  rw [h]

theorem writeFailed_eq (y : Sector) (off : Nat) (source : RecordSource) (r : JournalRecord) (k : TransactionKind) (p : Phase)
    (e : ErrorKind) (hm : s.journal.mode = .normal) : s.writeFailed y off source r k p e =
      if s.journal.failures = 0 then failedWrite s y source r k p e off else degraded (failedWrite s y source r k p e off) := by
  have hmode : (failedWrite s y source r k p e off).journal.mode = .normal := by
    change ((s.journal.modSector y _).returnSerial source r.serial).mode = .normal
    unfold Journal.returnSerial
    split <;> exact hm
  rw [← degrade_of_normal hmode]
  change (if s.journal.failures + 1 < 2 then failedWrite s y source r k p e off else (failedWrite s y source r k p e off).degrade) = _
  exact if_congr (by omega) rfl rfl

/-- Settles O34: the failure is recorded, and the second makes the journal DEGRADED. -/
theorem failedWriteFillsTheSector : Obligations.FailedWriteFillsTheSector := by
  intro s y source r c e hm count failed
  have hfailed : ∀ k p off, failedWrite s y source r k p e off = failed k p off := fun k p off => by
    have hret : (s.journal.modSector y fun z => { z with state := .full, torn := some off }).returnSerial source r.serial =
        { s.journal with
          sectors := s.journal.sectors.set y { s.sector y with state := .full, torn := some off }
          appendSet := match source with
            | .appendSet => r.serial :: s.journal.appendSet.filter fun z => z != r.serial
            | .compactionCopy => s.journal.appendSet } := by
      cases source with
      | appendSet => exact returnSerial_appendSet (show (s.journal.modSector y _).mode = .normal from hm) r.serial
      | compactionCopy => rfl
    unfold failedWrite
    rw [hret]
    cases source <;> rfl
  refine ⟨fun hw hc => ?_, fun hw hc => ?_⟩
  · have hexec : exec c s = .next (s.writeFailed y (4096 - s.journal.room) source r .recordWrite .write e) := by
      have : ∀ e, s.recordWriteEnd (some e) = s.writeFailed y (4096 - s.journal.room) source r .recordWrite .write e := fun e => by
        unfold State.recordWriteEnd
        rw [hw]; rfl
      rcases hc with ⟨rfl, rfl⟩ | ⟨rfl, rfl⟩ <;> exact congrArg Host.Outcome.next (this _)
    rw [hexec, writeFailed_eq _ _ _ _ _ _ _ hm, hfailed]
    exact ⟨fun h => by rw [if_pos h], fun h => by rw [if_neg (by omega)]⟩
  · have hexec : exec c s = .next (s.writeFailed y 0 source r .sectorOpen .header e).checkCompaction := by
      have : ∀ e, s.headerWriteEnd (some e) = (s.writeFailed y 0 source r .sectorOpen .header e).checkCompaction := fun e => by
        unfold State.headerWriteEnd
        rw [hw]
      rcases hc with ⟨rfl, rfl⟩ | ⟨rfl, rfl⟩ <;> exact congrArg Host.Outcome.next (this _)
    rw [hexec, writeFailed_eq _ _ _ _ _ _ _ hm, hfailed]
    refine ⟨fun h _ => ?_, fun h => ?_⟩
    · rw [if_pos h]
      exact ⟨_, rfl, checkCompaction_compacts _⟩
    · rw [if_neg (by omega)]
      exact congrArg Host.Outcome.next ((checkCompaction_compacts (degraded (failed .sectorOpen .header 0))).1 (.inr (.inl rfl)))

/-! ### Writes that succeed (R146, R147, R149) -/

/-- The state in which a record stands in flash (R146). -/
def written (s : State) (y : Sector) (r : JournalRecord) : State := { s with journal := { s.journal with
  flash := s.journal.flash.writeBytes (4096 * y.val + (4096 - s.journal.room)) r.bytes
  room := s.journal.room - r.size, failures := 0, writer := .idle
  newest := s.journal.newest.filter (fun e => e.1 != r.serial) ++ [(r.serial, y)] } }

/-- The state once a copy has left the append set (R149). -/
def unqueued (s : State) (r : JournalRecord) : State :=
  if s.journal.copyStale = true then s
  else { s with journal := { s.journal with appendSet := s.journal.appendSet.filter fun z => z != r.serial } }

theorem unqueued_compaction (s : State) (r : JournalRecord) : (unqueued s r).journal.compaction = s.journal.compaction := by
  unfold unqueued
  split <;> rfl

theorem copyWritten_free {r : JournalRecord} (h : ∀ z ys, s.journal.compaction ≠ .copying z ys) :
    s.copyWritten r.serial = unqueued s r := by
  unfold State.copyWritten; dsimp only
  split
  · rename_i x ys hc
    exact absurd ((unqueued_compaction s r).symm.trans hc) (h x ys)
  · rfl

theorem copyWritten_copying {r : JournalRecord} {z : Sector} {x : Serial} {rest : List Serial}
    (h : s.journal.compaction = .copying z (x :: rest)) : s.copyWritten r.serial =
      if rest = [] then (unqueued s r).compactionErase z
      else { unqueued s r with journal := { (unqueued s r).journal with compaction := .copying z rest } } := by
  unfold State.copyWritten; dsimp only
  split
  · rename_i y ys hc
    cases (h.symm.trans (unqueued_compaction s r).symm).trans hc
    exact if_congr List.isEmpty_iff rfl rfl
  · rename_i hn
    exact absurd ((unqueued_compaction s r).trans h) (hn z (x :: rest))

/-- The bytes a record's write leaves in flash (R146). -/
theorem written_flash (y : Sector) (r : JournalRecord) (hwf : s.journal.flash.wf = true) :
    (∀ k : Nat, k < r.size →
      (written s y r).journal.flash.read (4096 * y.val + (4096 - s.journal.room) + k) = r.bytes.getD k 0) ∧
    (∀ a : Nat, a < 4096 * y.val + (4096 - s.journal.room) ∨ 4096 * y.val + (4096 - s.journal.room) + r.size ≤ a →
      (written s y r).journal.flash.read a = s.journal.flash.read a) := by
  refine ⟨fun k hk => ?_, fun a ha => ?_⟩
  · exact read_writeBytes_inside hwf r.bytes _ k (by rw [JournalRecord.length_bytes]; exact hk)
  · exact Memory.read_writeBytes_outside _ _ (by rw [JournalRecord.length_bytes]; exact ha)

/-- The state in which a header stands in flash, compaction not yet checked (R147). -/
def headed (s : State) (y : Sector) (source : RecordSource) (r : JournalRecord) (q : Nat) : State := { s with journal := { s.journal with
  flash := s.journal.flash.writeBytes (4096 * y.val) (headerBytesOf (BitVec.ofNat 32 q))
  writer := s.writerAfterHeader y source r, copyStale := false } }

theorem headed_flash (s : State) (y : Sector) (source : RecordSource) (r : JournalRecord) (q : Nat) :
    (headed s y source r q).journal.flash = s.journal.flash.writeBytes (4096 * y.val) (headerBytesOf (BitVec.ofNat 32 q)) := rfl

/-- The header stands in flash (12.3). -/
theorem headed_header {y : Sector} {source : RecordSource} {r : JournalRecord} {q : Nat} (hwf : s.journal.flash.wf = true) :
    (headed s y source r q).journal.flash.readBytes (4096 * y.val) 16 = headerBytesOf (BitVec.ofNat 32 q) := by
  rw [headed_flash, ← length_headerBytesOf (BitVec.ofNat 32 q), readBytes_writeBytes hwf]

theorem headerWriteEnd_ok {y : Sector} {source : RecordSource} {r : JournalRecord} {q : Nat}
    (hw : s.journal.writer = .header y source r) (hq : (s.sector y).sequence = some q) (hlt : q < 2 ^ 32) :
    s.headerWriteEnd none = (headed s y source r q).checkCompaction := by
  have hbits : sequenceBits ((s.journal.sectors[y].sequence).getD 0) = BitVec.ofNat 32 q := by
    rw [show s.journal.sectors[y].sequence = some q from hq]
    exact if_pos hlt
  unfold State.headerWriteEnd
  rw [hw]; dsimp only
  unfold headed
  rw [← hbits]
  rfl

theorem writerAfterHeader_copy (y : Sector) (r : JournalRecord) : s.writerAfterHeader y .compactionCopy r =
    if (s.entry r.serial).isSome then .record y .compactionCopy (s.recordOf r.serial) else .idle := by
  unfold State.writerAfterHeader State.waitingRecord
  dsimp only
  cases (s.entry r.serial).isSome <;> rfl

/-- Settles O33: the record's or the header's bytes, and what the writer and compaction do next. -/
theorem journalWritesLandInFlash : Obligations.JournalWritesLandInFlash := by
  refine ⟨fun s y source r hw hwf => ?_, fun s y source r q hw hn hq hlt hwf => ?_⟩
  · obtain ⟨hin, hout⟩ := written_flash y r hwf
    have hexec : exec (.recordWriteDone true) s = .next (s.recordWritten y source r) := by
      refine congrArg Host.Outcome.next ?_
      change s.recordWriteEnd none = _
      unfold State.recordWriteEnd
      rw [hw]
    have hcopy : source = .compactionCopy → s.recordWritten y source r = (written s y r).copyWritten r.serial := by
      rintro rfl; rfl
    refine ⟨written s y r, rfl, hin, hout, fun hs => ?_, fun hs => ?_⟩
    · subst hs; exact hexec
    · intro v
      have hv : v = unqueued (written s y r) r := rfl
      rw [hcopy hs] at hexec
      refine ⟨fun hc => ?_, fun z x rest hc => ⟨fun hr => ?_, fun hr => ⟨fun hsup => ?_, fun hsup => ?_⟩⟩⟩
      · rw [hexec, copyWritten_free (s := written s y r) hc, hv]
      · rw [hexec, copyWritten_copying (s := written s y r) hc, if_neg hr, hv]
      all_goals
        rw [hexec, copyWritten_copying (s := written s y r) hc, if_pos hr]
        have hsupply : (unqueued (written s y r) r).supply = s.supply := by
          unfold unqueued; split <;> rfl
      · rw [compactionErase_begins (by rw [hsupply]; exact saving_false hsup), hv]
      · rw [compactionErase_held (by rw [hsupply]; exact saving_true hsup), hv]
  · refine ⟨headed s y source r q, _, congrArg Host.Outcome.next (headerWriteEnd_ok hw hq hlt), checkCompaction_compacts _, ?_, ?_,
      fun a ha => Memory.read_writeBytes_outside _ _ (by rw [length_headerBytesOf]; exact ha)⟩
    · cases source with
      | appendSet => rfl
      | compactionCopy =>
        unfold headed
        rw [writerAfterHeader_copy]
    · exact headed_header hwf

end Sys2Proof.Machine
end

section
/-! PROOF. O32: what the idle writer takes. -/

namespace Sys2Proof.Machine

open Sys2Proof.Safety

variable {s : State}

/-! ### The placing of a record (R146, R147) -/

/-- The state with the ACTIVE sector, which a record does not fit, made FULL (R146). -/
def activeFilled (s : State) (y : Sector) : State := { s with journal := { s.journal with
  sectors := s.journal.sectors.set y { s.sector y with state := .full }, room := 0 } }

/-- The state with a sector opened for a record (R147). -/
def sectorOpened (s u : State) (z : Sector) (source : RecordSource) (r : JournalRecord) : State := { u with journal := { u.journal with
  writer := .header z source r, room := 4080
  sectors := u.journal.sectors.set z { s.sector z with state := .active, sequence := some s.journal.nextSequence } } }

theorem fillActive_eq {y : Sector} (h : s.journal.active = some y) : s.modJournal Journal.fillActive = activeFilled s y := by
  unfold State.modJournal Journal.fillActive
  rw [h]; rfl

theorem active_state {j : Journal} {y : Sector} (h : j.active = some y) : j.sectors[y].state = .active := by
  have := List.find?_some h
  exact of_decide_eq_true this

theorem lowestErased_state {j : Journal} {z : Sector} (h : j.lowestErased = some z) : j.sectors[z].state = .erased := by
  have := List.find?_some h
  exact of_decide_eq_true this

theorem activeFilled_sector (s : State) (y z : Sector) :
    (activeFilled s y).journal.sectors[z] = if z = y then { s.sector y with state := .full } else s.sector z := by
  have h := upd_get s.journal.sectors y z fun r => { r with state := .full }
  refine h.trans ?_
  split <;> rfl

/-- Filling the ACTIVE sector leaves which sectors are ERASED, and every sequence number. -/
theorem activeFilled_keeps {y : Sector} (h : s.journal.active = some y) :
    (∀ z : Sector, decide ((activeFilled s y).journal.sectors[z].state = .erased) = decide (s.journal.sectors[z].state = .erased)) ∧
      (activeFilled s y).journal.nextSequence = s.journal.nextSequence := by
  have hseq : ∀ z : Sector, (activeFilled s y).journal.sectors[z].sequence = s.journal.sectors[z].sequence := fun z => by
    rw [activeFilled_sector]
    split
    · rename_i hz; rw [hz]; rfl
    · rfl
  refine ⟨fun z => ?_, ?_⟩
  · rw [activeFilled_sector]
    split
    · rename_i hz
      rw [hz, active_state h]; rfl
    · rfl
  · have hlist : largestSequence (activeFilled s y).journal.sectors.toList = largestSequence s.journal.sectors.toList := by
      have hmap : (activeFilled s y).journal.sectors.toList.map (·.sequence) = s.journal.sectors.toList.map (·.sequence) := by
        refine List.ext_getElem (by simp) fun i h1 h2 => ?_
        rw [List.getElem_map, List.getElem_map, Vector.getElem_toList, Vector.getElem_toList]
        exact hseq ⟨i, by simpa using h2⟩
      have key : ∀ as bs : List SectorRec, as.map (·.sequence) = bs.map (·.sequence) → largestSequence as = largestSequence bs := by
        intro as
        induction as with
        | nil => intro bs h; rw [List.map_eq_nil_iff.1 h.symm]
        | cons a as ih =>
          intro bs h
          cases bs with
          | nil => exact nomatch h
          | cons b bs =>
            obtain ⟨h1, h2⟩ := List.cons.inj h
            have h1 : a.sequence = b.sequence := h1
            unfold largestSequence
            rw [h1, ih bs h2]
      exact key _ _ hmap
    unfold Journal.nextSequence
    rw [hlist]
    simp only [hseq]

theorem openSector_eq (s u : State) (z : Sector) (source : RecordSource) (r : JournalRecord)
    (hn : u.journal.nextSequence = s.journal.nextSequence) (hz : u.journal.sectors[z] = s.sector z) :
    (u.modJournal fun j => j.openSector z source r) = sectorOpened s u z source r := by
  unfold sectorOpened State.modJournal Journal.openSector Journal.modSector
  dsimp only
  rw [hn]
  have h : upd u.journal.sectors z (fun e => { e with state := .active, sequence := some s.journal.nextSequence }) =
      u.journal.sectors.set z { s.sector z with state := .active, sequence := some s.journal.nextSequence } := by
    rw [← hz]; rfl
  rw [← h]
  rfl

/-- What the placing of a record makes of `s` (R146): `taken` where it is placed, `kept` where it is not. -/
def placedWith (s : State) (source : RecordSource) (r : JournalRecord) (taken kept : State → State) : State :=
  if (s.placeRecord source r).2 then taken (s.placeRecord source r).1 else kept (s.placeRecord source r).1

/-- The number of ERASED sectors R147 asks for. -/
def leastErased (s : State) : Nat := if s.supply.state = .normal then 2 else 1

theorem openFor_spec {u : State} {source : RecordSource} {r : JournalRecord} (hm : u.journal.mode = .normal) :
    (∀ z, leastErased u ≤ u.journal.erasedCount → u.journal.lowestErased = some z →
      State.placeRecord.openFor source r u = (u.modJournal fun j => j.openSector z source r, true)) ∧
    (u.journal.erasedCount < leastErased u → State.placeRecord.openFor source r u = (u, false)) := by
  have hopen : u.journal.mayOpen u.supply.state = decide (leastErased u ≤ u.journal.erasedCount) := by
    unfold Journal.mayOpen leastErased
    rw [hm]; rfl
  unfold State.placeRecord.openFor
  rw [hopen]
  refine ⟨fun z h hz => ?_, fun h => ?_⟩
  · rw [if_pos (decide_eq_true h), hz]
  · rw [if_neg (by rw [decide_eq_false (Nat.not_le.2 h)]; exact Bool.false_ne_true)]

/-- R146, R147: the placing of a record. -/
theorem placeRecord_writes (source : RecordSource) (r : JournalRecord) (taken kept : State → State) (hm : s.journal.mode = .normal) :
    writes s source r taken kept (placedWith s source r taken kept) := by
  have hpl : ∀ v p, s.placeRecord source r = (v, p) → placedWith s source r taken kept = if p then taken v else kept v :=
    fun v p h => by unfold placedWith; rw [h]
  refine ⟨fun y hy => ⟨fun hfit => ?_, fun hfit => ?_⟩, fun hnone => ?_⟩
  · refine hpl _ true ?_
    unfold State.placeRecord
    rw [hy]; dsimp only
    rw [if_pos hfit]; rfl
  · have hp : s.placeRecord source r = State.placeRecord.openFor source r (activeFilled s y) := by
      unfold State.placeRecord
      rw [hy]; dsimp only
      rw [if_neg (Nat.not_le.2 hfit), fillActive_eq hy]
    obtain ⟨hkeep, hseq⟩ := activeFilled_keeps hy
    have hcount : (activeFilled s y).journal.erasedCount = s.journal.erasedCount := by
      unfold Journal.erasedCount
      simp only [hkeep]
    have hlow : (activeFilled s y).journal.lowestErased = s.journal.lowestErased := by
      unfold Journal.lowestErased
      simp only [hkeep]
    obtain ⟨h1, h2⟩ := openFor_spec (u := activeFilled s y) (source := source) (r := r) hm
    rw [hcount, hlow, ← hp] at h1
    rw [hcount, ← hp] at h2
    refine ⟨fun z hle hz => ?_, fun hlt => hpl _ false (h2 hlt)⟩
    have hzy : z ≠ y := fun k => by
      have := (active_state hy).symm.trans (k ▸ lowestErased_state hz)
      exact nomatch this
    have hop := openSector_eq s (activeFilled s y) z source r hseq (by rw [activeFilled_sector, if_neg hzy])
    exact (hpl _ true (h1 z hle hz)).trans (congrArg taken hop)
  · have hp : s.placeRecord source r = State.placeRecord.openFor source r s := by
      unfold State.placeRecord
      rw [hnone]
    obtain ⟨h1, h2⟩ := openFor_spec (u := s) (source := source) (r := r) hm
    rw [← hp] at h1 h2
    exact ⟨fun z hle hz => (hpl _ true (h1 z hle hz)).trans (congrArg taken (openSector_eq s s z source r rfl rfl)),
      fun hlt => hpl _ false (h2 hlt)⟩

/-! ### The taking of a record (R146, R149) -/

theorem openFor_kept (u : State) (source : RecordSource) (r : JournalRecord) :
    (State.placeRecord.openFor source r u).1.journal.appendSet = u.journal.appendSet ∧
      (State.placeRecord.openFor source r u).1.journal.mode = u.journal.mode := by
  unfold State.placeRecord.openFor
  split
  · split <;> exact ⟨rfl, rfl⟩
  · exact ⟨rfl, rfl⟩

theorem placeRecord_kept (s : State) (source : RecordSource) (r : JournalRecord) :
    (s.placeRecord source r).1.journal.appendSet = s.journal.appendSet ∧ (s.placeRecord source r).1.journal.mode = s.journal.mode := by
  unfold State.placeRecord
  split
  · rename_i y hy
    split
    · exact ⟨rfl, rfl⟩
    · obtain ⟨h1, h2⟩ := openFor_kept (s.modJournal Journal.fillActive) source r
      rw [fillActive_eq hy] at h1 h2 ⊢
      exact ⟨h1, h2⟩
  · exact openFor_kept s source r

/-- The state with the append set that a taken serial leaves (R146). -/
def leftSet (l : List Serial) (u : State) : State := { u with journal := { u.journal with appendSet := l } }

theorem takeFromSet_eq {x : Serial} {rest : List Serial} (h : s.journal.appendSet = x :: rest) :
    s.takeFromSet = placedWith s .appendSet (s.recordOf x) (leftSet ((x :: rest).filter fun z => z != x)) id := by
  have hkept := (placeRecord_kept s .appendSet (s.recordOf x)).1
  unfold State.takeFromSet placedWith
  rw [h]; dsimp only
  split
  · rw [← h, ← hkept]; rfl
  · rfl

theorem takeFromSet_empty (h : s.journal.appendSet = []) : s.takeFromSet = s := by
  unfold State.takeFromSet
  rw [h]

theorem takeCopy_eq (x : Serial) (hm : s.journal.mode = .normal) :
    s.takeCopy x = placedWith s .compactionCopy (s.recordOf x) id degraded := by
  have hmode := (placeRecord_kept s .compactionCopy (s.recordOf x)).2.trans hm
  unfold State.takeCopy placedWith
  dsimp only
  rw [degrade_of_normal hmode]
  rfl

theorem nextCopies_none (h : ∀ y ys, s.journal.compaction ≠ .copying y ys) : s.nextCopies = none := by
  unfold State.nextCopies
  split
  · rename_i y ys hc; exact absurd hc (h y ys)
  · rfl

theorem nextCopies_some {y : Sector} {ys : List Serial} (h : s.journal.compaction = .copying y ys) :
    s.nextCopies = some (y, ys.dropWhile fun z => (s.entry z).isNone) := by
  unfold State.nextCopies
  rw [h]

theorem dropWhile_skipped {skipped rest : List Serial} {x : Serial} (h1 : ∀ z ∈ skipped, s.entry z = none)
    (h2 : (s.entry x).isSome = true) : (skipped ++ x :: rest).dropWhile (fun z => (s.entry z).isNone) = x :: rest := by
  rw [List.dropWhile_append_of_pos fun z hz => by rw [h1 z hz]; rfl]
  refine List.dropWhile_cons_of_neg ?_
  rw [Option.isNone_iff_eq_none]
  exact fun h => by rw [h] at h2; exact nomatch h2

theorem dropWhile_all {ys : List Serial} (h : ∀ z ∈ ys, s.entry z = none) :
    ys.dropWhile (fun z => (s.entry z).isNone) = [] := by
  rw [List.dropWhile_eq_nil_iff]
  exact fun z hz => by rw [h z hz]; rfl

/-- The idle writer of a journal that is not DEGRADED, by what compaction would copy next. -/
theorem takeRecord_eq (hw : s.journal.writer = .idle) (hm : s.journal.mode = .normal) :
    (s.supply.saving = true → s.takeRecord = s.takeFromSet) ∧
    (s.supply.state = .normal → s.nextCopies = none → s.takeRecord = s.takeFromSet) ∧
    (s.supply.saving = false → ∀ y x rest, s.nextCopies = some (y, x :: rest) →
      s.takeRecord = (s.modJournal fun j => { j with compaction := .copying y (x :: rest) }).takeCopy x) ∧
    (s.supply.saving = false → ∀ y, s.nextCopies = some (y, []) → s.takeRecord =
      if (s.compactionErase y).supply.state = .normal then (s.compactionErase y).takeFromSet else s.compactionErase y) := by
  have hmay : (decide (s.journal.writer = .idle) && decide (s.journal.mode = .normal)) = true := by simp [hw, hm]
  unfold State.takeRecord
  rw [if_pos hmay]
  refine ⟨fun h => if_pos h, fun h hn => ?_, fun h y x rest hn => ?_, fun h y hn => ?_⟩
  · rw [if_neg (by rw [saving_false (.inl h)]; exact Bool.false_ne_true), hn]; dsimp only
    rw [if_pos h]
  · rw [if_neg (by rw [h]; exact Bool.false_ne_true), hn]
  · rw [if_neg (by rw [h]; exact Bool.false_ne_true), hn]

/-- Settles O32: what the writer takes, and how it is placed. -/
theorem writerTakesTheHeadOfTheSet : Obligations.WriterTakesTheHeadOfTheSet := by
  intro s hw hm
  obtain ⟨h1, h2, h3, h4⟩ := takeRecord_eq hw hm
  refine ⟨fun x rest hset hcase => ?_, fun y ys hc hsup => ⟨fun skipped x rest hys hskip hx => ?_, fun hall hset => ?_⟩⟩
  · have htake : s.takeRecord = s.takeFromSet := by
      rcases hcase with ⟨hn, hc⟩ | hcase
      · exact h2 hn (nextCopies_none hc)
      · exact h1 (saving_true hcase)
    exact ⟨_, congrArg Host.Outcome.next (htake.trans (takeFromSet_eq hset)),
      placeRecord_writes .appendSet (s.recordOf x) (leftSet ((x :: rest).filter fun z => z != x)) id hm⟩
  · have hnext := (nextCopies_some hc).trans (congrArg (fun l => some (y, l)) ((congrArg _ hys).trans (dropWhile_skipped hskip hx)))
    have htake := h3 (saving_false hsup) y x rest hnext
    rw [takeCopy_eq (s := s.modJournal fun j => { j with compaction := .copying y (x :: rest) }) x hm] at htake
    exact ⟨_, congrArg Host.Outcome.next htake, placeRecord_writes
      (s := { s with journal := { s.journal with compaction := .copying y (x :: rest) } }) .compactionCopy (s.recordOf x) id degraded hm⟩
  · have hnext := (nextCopies_some hc).trans (congrArg (fun l => some (y, l)) (dropWhile_all hall))
    have htake := h4 (saving_false hsup) y hnext
    refine congrArg Host.Outcome.next (htake.trans ?_)
    rw [compactionErase_begins (saving_false hsup)]
    split
    · rename_i hn
      refine takeFromSet_empty (hset.resolve_right fun h => ?_)
      exact nomatch (show s.supply.state = .normal from hn).symm.trans h
    · rfl

end Sys2Proof.Machine
end

section
/-! PROOF. The key store (R48 to R52): one slot request taken, the bays of a revoked slot, the end of a store write and of the
slot table's read. -/

namespace Sys2Proof.Machine

open Sys2Proof.Safety

variable {s u : State}

/-! ### One slot request at a time (R49) -/

/-- The engine takes slot request `e` (R50, R51). -/
def takeSlot (s : State) (e : QueueEntry) : State := if e.kind = .slotLoad then s.takeSlotLoad e else s.takeSlotRevoke e

/-- No slot request can be taken: a store write runs, or none waits (R49). -/
def slotsRest (s : State) : Prop := s.digest.writing.isSome = true ∨ s.nextSlotRequest = none

theorem takeSlotRequests_rest (n : Nat) (h : slotsRest s) : s.takeSlotRequests n = s := by
  cases n with
  | zero => rfl
  | succ n =>
    unfold State.takeSlotRequests
    split
    · rfl
    · rename_i hw
      rw [h.resolve_left hw]

theorem runSlots_rest (h : slotsRest s) : s.runSlots = s := takeSlotRequests_rest _ h

theorem runSlots_take {e : QueueEntry} (hw : s.digest.writing = none) (hn : s.nextSlotRequest = some e)
    (hr : slotsRest (takeSlot s e)) : s.runSlots = takeSlot s e := by
  unfold State.runSlots State.takeSlotRequests
  rw [hw, if_neg (by decide), hn]
  exact takeSlotRequests_rest _ hr

theorem nextSlotRequest_none (h : ∀ e ∈ s.dispatcher.queue, e.wait ≠ .slotQueued) : s.nextSlotRequest = none :=
  List.find?_eq_none.2 fun e he => by simpa using h e he

/-! ### The queue when a request's wait changes -/

/-- A change of a wait to another than the one asked for leaves the entries that have it, but for the tag's own. -/
theorem filter_setWait {w w' : Wait} (hw : w ≠ w') (x : Byte) (q : List QueueEntry) :
    ((q.map fun e => if e.tag = x then { e with wait := w } else e).filter fun e => e.wait = w') =
      (q.filter fun e => e.wait = w').filter fun e => e.tag ≠ x := by
  induction q with
  | nil => rfl
  | cons e q ih =>
    rw [List.map_cons, List.filter_cons, ih, List.filter_cons]
    by_cases hx : e.tag = x <;> by_cases hq : e.wait = w' <;> simp [hx, hq, hw]

theorem nextSlotRequest_eq (s : State) : s.nextSlotRequest = (s.dispatcher.queue.filter fun e => e.wait = .slotQueued).head? :=
  List.head?_filter.symm

theorem find_of_tagsUnique {e : QueueEntry} (hu : tagsUnique s) (he : e ∈ s.dispatcher.queue) :
    s.dispatcher.queue.find? (fun x => x.tag = e.tag) = some e := by
  cases hf : s.dispatcher.queue.find? (fun x => x.tag = e.tag) with
  | none => exact absurd (List.find?_eq_none.1 hf e he) (by simp)
  | some x =>
    have ht : x.tag = e.tag := by simpa using List.find?_some hf
    rw [List.inj_on_of_nodup_map hu (List.mem_of_find?_eq_some hf) he ht]

theorem complete_of_tagsUnique {e : QueueEntry} (hu : tagsUnique s) (he : e ∈ s.dispatcher.queue) (r : ResultCode) (p : List Byte) :
    s.complete { tag := e.tag, result := r, payload := p } = placing (s.setWait e.tag .replied) (replyOf e r p) := by
  unfold State.complete
  rw [find_of_tagsUnique hu he]
  exact State.placeReply_eq _ _

theorem tagsUnique_setWait (x : Byte) (w : Wait) (hu : tagsUnique s) : tagsUnique (s.setWait x w) := by
  have h : ((s.setWait x w).dispatcher.queue.map (·.tag)) = s.dispatcher.queue.map (·.tag) := by
    change ((s.dispatcher.queue.map _).map _) = _
    rw [List.map_map]
    refine List.map_congr_left fun e _ => ?_
    change QueueEntry.tag (if e.tag = x then _ else _) = e.tag
    split <;> rfl
  unfold tagsUnique
  rwa [h]

theorem mem_setWait {e : QueueEntry} (w : Wait) (he : e ∈ s.dispatcher.queue) :
    { e with wait := w } ∈ (s.setWait e.tag w).dispatcher.queue :=
  List.mem_map.2 ⟨e, he, if_pos rfl⟩

theorem mem_setWait_ne {e : QueueEntry} {x : Byte} (w : Wait) (he : e ∈ s.dispatcher.queue) (hx : e.tag ≠ x) :
    e ∈ (s.setWait x w).dispatcher.queue :=
  List.mem_map.2 ⟨e, he, if_neg hx⟩

/-- No slot request waits after a completion where none waited before. -/
theorem complete_noneQueued (c : Completion) (h : ∀ e ∈ s.dispatcher.queue, e.wait ≠ .slotQueued) :
    ∀ e ∈ (s.complete c).dispatcher.queue, e.wait ≠ .slotQueued := by
  unfold State.complete
  split
  · exact h
  · rw [State.placeReply_eq]
    intro e he
    obtain ⟨x, hx, rfl⟩ := List.mem_map.1 he
    split
    · exact Wait.noConfusion
    · exact h x hx

/-! ### Slot requests judged (R50, R51) -/

theorem slotOfByte_slot (k : SlotNo) : slotOfByte (BitVec.ofNat 8 k.val) = some k := by revert k; decide

theorem slotOfByte_above {n : Byte} (h : 3 < n.toNat) : slotOfByte n = none := dif_neg (by omega)

theorem mem_allSlots (k : SlotNo) : k ∈ allSlots := by revert k; decide

theorem tagInUse_iff (s : State) (k : SlotNo) (tag : BitVec 32) : s.tagInUse k tag = true ↔
    ∃ j, j ≠ k ∧ (s.slot j).state ≠ .empty ∧ slotTag j (s.slot j) = tag := by
  unfold State.tagInUse
  simp [List.any_eq_true, mem_allSlots, and_assoc]

/-- The fields of a SLOT-LOAD's payload are read back (12.1). -/
theorem slotLoadBytes_fields {p : List Byte} {k : SlotNo} {tag : BitVec 32} {secret : BitVec 256} (h : p = slotLoadBytes k tag secret) :
    slotOfByte (byteAt p 0) = some k ∧ BitVec.ofNat 32 (beNat (slice p 1 4)) = tag ∧
      BitVec.ofNat 256 (beNat (slice p 5 32)) = secret := by
  subst h
  refine ⟨slotOfByte_slot k, ?_, ?_⟩
  · exact ofNat_beNat_beBytes (n := 4) (by decide) tag
  · exact ofNat_beNat_beBytes (n := 32) (by decide) secret

theorem takeSlotLoad_begins {e : QueueEntry} {k : SlotNo} {tag : BitVec 32} {secret : BitVec 256}
    (hp : e.payload = slotLoadBytes k tag secret) (hs : (s.slot k).state = .empty)
    (hb : ¬∃ j, j ≠ k ∧ (s.slot j).state ≠ .empty ∧ slotTag j (s.slot j) = tag) :
    s.takeSlotLoad e = s.beginStoreWrite e k (.load tag secret) := by
  obtain ⟨hk, ht, hx⟩ := slotLoadBytes_fields hp
  unfold State.takeSlotLoad
  rw [hk]; dsimp only
  rw [hs, ht, hx, if_neg (by decide), if_neg fun h => hb ((tagInUse_iff s k tag).1 h)]

theorem takeSlotLoad_borne {e : QueueEntry} {k : SlotNo} {tag : BitVec 32} {secret : BitVec 256}
    (hp : e.payload = slotLoadBytes k tag secret) (hs : (s.slot k).state = .empty)
    (hb : ∃ j, j ≠ k ∧ (s.slot j).state ≠ .empty ∧ slotTag j (s.slot j) = tag) :
    s.takeSlotLoad e = s.complete { tag := e.tag, result := .badValue, payload := slotReply s k } := by
  obtain ⟨hk, ht, -⟩ := slotLoadBytes_fields hp
  unfold State.takeSlotLoad
  rw [hk]; dsimp only
  rw [hs, ht, if_neg (by decide), if_pos ((tagInUse_iff s k tag).2 hb)]

theorem takeSlotLoad_occupied {e : QueueEntry} {k : SlotNo} {tag : BitVec 32} {secret : BitVec 256}
    (hp : e.payload = slotLoadBytes k tag secret) (hs : (s.slot k).state ≠ .empty) :
    s.takeSlotLoad e = s.complete { tag := e.tag, result := .state, payload := slotReply s k } := by
  obtain ⟨hk, -, -⟩ := slotLoadBytes_fields hp
  unfold State.takeSlotLoad
  rw [hk]
  exact if_pos (by simpa using hs)

theorem takeSlotRevoke_revoked {e : QueueEntry} {k : SlotNo} (hp : e.payload = [BitVec.ofNat 8 k.val])
    (hs : (s.slot k).state = .revoked) :
    s.takeSlotRevoke e = s.complete { tag := e.tag, result := .ok, payload := slotReply s k } := by
  have hb : slotOfByte (byteAt e.payload 0) = some k := by rw [hp]; exact slotOfByte_slot k
  unfold State.takeSlotRevoke
  rw [hb]; dsimp only
  rw [hs]

/-- R51: the slot is REVOKED in the table, and its store write runs. -/
def revokeBegun (s : State) (e : QueueEntry) (k : SlotNo) : State := (s.modSlot k Slot.revoke).beginStoreWrite e k .revoke

theorem takeSlotRevoke_begins {e : QueueEntry} {k : SlotNo} (hp : e.payload = [BitVec.ofNat 8 k.val])
    (hs : (s.slot k).state ≠ .revoked) : s.takeSlotRevoke e =
      if (s.slot k).state = .enabled then forBays (fun b s => s.revokeBay k b) (revokeBegun s e k) else revokeBegun s e k := by
  have hb : slotOfByte (byteAt e.payload 0) = some k := by rw [hp]; exact slotOfByte_slot k
  unfold State.takeSlotRevoke
  rw [hb]; dsimp only
  cases h : (s.slot k).state with
  | revoked => exact absurd h hs
  | empty => rfl
  | enabled => rfl

theorem takeSlot_above {e : QueueEntry} {n : Byte} {rest : List Byte} (hp : e.payload = n :: rest) (hn : 3 < n.toNat) :
    takeSlot s e = s.complete { tag := e.tag, result := .badValue, payload := [] } := by
  have hb : slotOfByte (byteAt e.payload 0) = none := by rw [hp]; exact slotOfByte_above hn
  unfold takeSlot State.takeSlotLoad State.takeSlotRevoke
  rw [hb]
  exact ite_self _

/-! ### The bays of a revoked slot (R21) -/

/-- Entry `e`, whose store write runs, stands in a queue of unique tags. -/
def holdsWriting (e : QueueEntry) (s : State) : Prop := tagsUnique s ∧ e ∈ s.dispatcher.queue ∧ e.wait = .slotWriting

theorem holdsWriting_congr {e : QueueEntry} (hd : u.dispatcher = s.dispatcher) (h : holdsWriting e s) : holdsWriting e u := by
  unfold holdsWriting tagsUnique at h ⊢
  rwa [hd]

/-- An ending at a bay completes no slot request. -/
theorem settleWaits_holdsWriting {e : QueueEntry} (b : Bay) (d : Ending) (h : holdsWriting e s) :
    holdsWriting e (s.settleWaits b d) := by
  have key : ∀ {v : State}, holdsWriting e v →
      holdsWriting e (v.completeAll (v.dispatcher.queue.filterMap (waitEnding v b d))) := by
    rintro v ⟨hu, he, hw⟩
    rw [State.completeAll_unique v hu _ fun q c => waitEnding_tag]
    refine ⟨?_, List.mem_map.2 ⟨e, he, ?_⟩, hw⟩
    · unfold tagsUnique at hu ⊢
      have : ∀ l : List QueueEntry, (l.map fun q => if (waitEnding v b d q).isSome then { q with wait := .replied } else q).map
          (·.tag) = l.map (·.tag) := fun l => by
        rw [List.map_map]
        refine List.map_congr_left fun q _ => ?_
        change QueueEntry.tag (if _ then _ else _) = q.tag
        split <;> rfl
      exact (this _).symm ▸ hu
    · rw [waitEnding_of_not_waitsOn v d (by rw [hw]; rfl)]; rfl
  have hrec : holdsWriting e (s.recordFlush b d) := by
    obtain ⟨hu, he, hw⟩ := h
    unfold State.recordFlush
    split
    · exact ⟨hu, he, hw⟩
    · rename_i o _
      refine ⟨?_, List.mem_map.2 ⟨e, he, ?_⟩, hw⟩
      · unfold tagsUnique at hu ⊢
        change ((s.dispatcher.queue.map _).map _).Nodup
        rw [List.map_map]; exact hu
      · obtain ⟨kind, tag, level, payload, w⟩ := e
        obtain rfl : w = .slotWriting := hw
        rfl
  exact key hrec

theorem recomputeMode_holdsWriting {e : QueueEntry} (b : Bay) (h : holdsWriting e s) : holdsWriting e (s.recomputeMode b) := by
  unfold State.recomputeMode; dsimp only
  split
  · exact h
  · split
    · exact settleWaits_holdsWriting _ _ (holdsWriting_congr rfl h)
    · exact holdsWriting_congr rfl h

theorem raiseIf_dispatcher (s : State) (p : Bool) (k : NoticeKind) (b : Bay) : (s.raiseIf p k b).dispatcher = s.dispatcher := by
  obtain ⟨v, h, -⟩ := s.raiseIf_only p k b
  rw [h]

theorem lowTest_dispatcher (s : State) (b : Bay) : (s.lowTest b).dispatcher = s.dispatcher := by
  obtain ⟨n, v, h, -⟩ := s.lowTest_only b
  rw [h]

theorem joinSet_dispatcher (s : State) (x : Serial) : (s.joinSet x).dispatcher = s.dispatcher := by
  obtain ⟨l, c, h⟩ := s.joinSet_only x
  rw [h]

theorem applyQuanta_holdsWriting {e : QueueEntry} (b : Bay) (n : Nat) (h : holdsWriting e s) : holdsWriting e (s.applyQuanta b n) := by
  have hlay : holdsWriting e (s.layQuanta b n) := holdsWriting_congr (raiseIf_dispatcher _ _ _ _) h
  unfold State.applyQuanta State.allowanceChecked State.afterStage7; dsimp only
  refine holdsWriting_congr ((raiseIf_dispatcher _ _ _ _).trans (lowTest_dispatcher _ _)) ?_
  split
  · exact hlay
  · exact recomputeMode_holdsWriting _ hlay

/-- A liability that moves ends no slot request (R132, R133). -/
theorem handLiability_holdsWriting {e : QueueEntry} (x : Serial) (m : Liability) (h : holdsWriting e s) :
    holdsWriting e (s.handLiability x m) := by
  unfold State.handLiability
  refine holdsWriting_congr (joinSet_dispatcher _ x) ?_
  split
  · split
    · exact applyQuanta_holdsWriting _ _ (holdsWriting_congr rfl h)
    · exact holdsWriting_congr (raiseIf_dispatcher _ _ _ _) h
  · exact holdsWriting_congr rfl h

theorem closeWithLiability_holdsWriting {e : QueueEntry} (b : Bay) (h : holdsWriting e s) :
    holdsWriting e (s.closeWithLiability b) := by
  unfold State.closeWithLiability; dsimp only
  split
  · split
    · exact handLiability_holdsWriting _ _ (holdsWriting_congr rfl h)
    · exact holdsWriting_congr rfl h
  · exact h

theorem rejectBay_holdsWriting {e : QueueEntry} (b : Bay) (why : RejectReason) (h : holdsWriting e s) :
    holdsWriting e (s.rejectBay b why) :=
  settleWaits_holdsWriting _ _ (holdsWriting_congr rfl
    (closeWithLiability_holdsWriting b (holdsWriting_congr (leaveTo_requests s b .rejected why).1 h)))

/-- What the revocation of slot `k` makes of a bay of it (R21): a drawable bay's re-challenge is WAITING, a QUARANTINED bay is
REJECTED. -/
def bayRevoked (s u : State) (b : Bay) : Prop :=
  ((s.bay b).drawable = true → u.context b = s.context b ∧
    u.bay b = { s.bay b with rechallenge := .waiting, rechallengeTimer := none }) ∧
  ((s.bay b).state = .quarantined → (u.bay b).state = .rejected ∧ (u.bay b).rejectReason = .unknownIssuer)

/-- What the revocation of slot `k` has made of the bays `bs`, and what it leaves (R21, R51). -/
structure baysRevoked (k : SlotNo) (bs : List Bay) (s u : State) : Prop where
  slots : u.digest.slots = s.digest.slots
  store : u.digest.store = s.digest.store
  writing : u.digest.writing = s.digest.writing
  queue : ∀ e, holdsWriting e s → holdsWriting e u
  others : ∀ b, b ∉ bs → u.bay b = s.bay b ∧ u.context b = s.context b
  elsewhere : ∀ b, (s.bay b).slot ≠ some k → u.bay b = s.bay b
  own : ∀ b ∈ bs, (s.bay b).slot = some k → bayRevoked s u b

theorem revokeBay_revokes (s : State) (k : SlotNo) (b : Bay) : baysRevoked k [b] s (s.revokeBay k b) := by
  have same : s.revokeBay k b = s → ((s.bay b).slot = some k → bayRevoked s s b) → baysRevoked k [b] s (s.revokeBay k b) := by
    intro h hown
    rw [h]
    exact ⟨rfl, rfl, rfl, fun _ => id, fun _ _ => ⟨rfl, rfl⟩, fun _ _ => rfl, fun c hc => by
      obtain rfl := List.mem_singleton.1 hc
      exact hown⟩
  by_cases hk : (s.bay b).slot = some k
  · by_cases hd : (s.bay b).drawable = true
    · have h : s.revokeBay k b = s.modBay b fun r => { r with rechallenge := .waiting, rechallengeTimer := none } := by
        unfold State.revokeBay; rw [if_pos hk, if_pos hd]
      rw [h]
      refine ⟨rfl, rfl, rfl, fun e he => holdsWriting_congr rfl he, fun c hc => ⟨?_, rfl⟩, fun c hc => ?_, fun c hc _ => ?_⟩
      · exact upd_get_ne _ _ fun heq => hc (List.mem_singleton.2 heq)
      · exact upd_get_ne _ _ fun heq => hc (heq ▸ hk)
      · obtain rfl := List.mem_singleton.1 hc
        refine ⟨fun _ => ⟨rfl, upd_get_same _ _ _⟩, fun hq => ?_⟩
        unfold BayRec.drawable at hd
        rw [hq] at hd
        exact absurd hd (by decide)
    · by_cases hq : (s.bay b).state = .quarantined
      · have h : s.revokeBay k b = s.rejectBay b .unknownIssuer := by
          unfold State.revokeBay; rw [if_pos hk, if_neg hd, if_pos hq]
        have hqueue : ∀ e, holdsWriting e s → holdsWriting e (s.rejectBay b .unknownIssuer) := fun e he =>
          rejectBay_holdsWriting b _ he
        obtain ⟨p, w, jobs, comp, a, t, v, l, q, j, c, hr, -⟩ := s.rejectBay_only b .unknownIssuer
        rw [h]
        rw [hr] at hqueue ⊢
        refine ⟨rfl, rfl, rfl, hqueue, fun c hc => ⟨?_, ?_⟩, fun c hc => ?_, fun c hc _ => ?_⟩
        · exact upd_get_ne _ _ fun heq => hc (List.mem_singleton.2 heq)
        · exact upd_get_ne _ _ fun heq => hc (List.mem_singleton.2 heq)
        · exact upd_get_ne _ _ fun heq => hc (heq ▸ hk)
        · obtain rfl := List.mem_singleton.1 hc
          refine ⟨fun hdr => absurd hdr hd, fun _ => ⟨?_, ?_⟩⟩
          · exact congrArg BayRec.state (upd_get_same s.bays c _)
          · exact congrArg BayRec.rejectReason (upd_get_same s.bays c _)
      · refine same ?_ fun _ => ⟨fun hdr => absurd hdr hd, fun hqr => absurd hqr hq⟩
        unfold State.revokeBay; rw [if_pos hk, if_neg hd, if_neg hq]
  · refine same ?_ fun h => absurd h hk
    unfold State.revokeBay; rw [if_neg hk]

theorem foldl_revokeBay (k : SlotNo) : ∀ (bs : List Bay) (s : State), bs.Nodup →
    baysRevoked k bs s (bs.foldl (fun s b => s.revokeBay k b) s) := by
  intro bs
  induction bs with
  | nil => exact fun s _ => ⟨rfl, rfl, rfl, fun _ => id, fun _ _ => ⟨rfl, rfl⟩, fun _ _ => rfl, fun _ h => nomatch h⟩
  | cons c bs ih =>
    intro s hn
    obtain ⟨hc, hbs⟩ := List.nodup_cons.1 hn
    have first := revokeBay_revokes s k c
    have rest := ih (s.revokeBay k c) hbs
    rw [List.foldl_cons]
    refine ⟨rest.slots.trans first.slots, rest.store.trans first.store, rest.writing.trans first.writing,
      fun e he => rest.queue e (first.queue e he), fun b hb => ?_, fun b hb => ?_, fun b hb hk => ?_⟩
    · obtain ⟨hbc, hbs⟩ := not_or.1 (mt List.mem_cons.2 hb)
      obtain ⟨h1, h2⟩ := first.others b (mt List.mem_singleton.1 hbc)
      obtain ⟨h3, h4⟩ := rest.others b hbs
      exact ⟨h3.trans h1, h4.trans h2⟩
    · have h1 := first.elsewhere b hb
      exact (rest.elsewhere b (by rw [h1]; exact hb)).trans h1
    · rcases List.mem_cons.1 hb with rfl | hb
      · obtain ⟨h1, h2⟩ := rest.others b hc
        have h := first.own b (List.mem_singleton.2 rfl) hk
        unfold bayRevoked at h ⊢
        rwa [h1, h2]
      · obtain ⟨h1, h2⟩ := first.others b (mt List.mem_singleton.1 fun heq => hc (heq ▸ hb))
        have h := rest.own b hb (by rw [h1]; exact hk)
        unfold bayRevoked at h ⊢
        rwa [h1, h2] at h

theorem forBays_revokeBay (k : SlotNo) (s : State) : baysRevoked k allBays s (forBays (fun b s => s.revokeBay k b) s) :=
  foldl_revokeBay k allBays s nodup_allBays

end Sys2Proof.Machine
end

section
/-! PROOF. O29: SLOT-LOAD and SLOT-REVOKE as they arrive. -/

namespace Sys2Proof.Machine

open Sys2Proof.Safety

variable {s : State}

/-- The state in which slot request `e` has arrived and waits to be taken. -/
def arrived (s : State) (e : QueueEntry) : State := holding s { e with wait := .slotQueued }

theorem serve_slot {e : QueueEntry} (hk : e.kind = .slotLoad ∨ e.kind = .slotRevoke)
    (h : ∀ x ∈ s.dispatcher.queue, x.tag ≠ e.tag) : (holding s e).serve e = (arrived s e).runSlots := by
  have hw : (holding s e).setWait e.tag .slotQueued = arrived s e := State.setWait_holding h _
  unfold State.serve
  rcases hk with hk | hk <;> rw [hk] <;> exact congrArg State.runSlots hw

/-- With no other request waiting, the request that arrived is the next. -/
theorem arrived_next (e : QueueEntry) (h : ∀ x ∈ s.dispatcher.queue, x.wait ≠ .slotQueued) :
    (arrived s e).nextSlotRequest = some { e with wait := .slotQueued } := by
  unfold State.nextSlotRequest arrived holding; dsimp only
  rw [List.find?_append, List.find?_eq_none.2 (by simpa using h)]
  simp

theorem answered_rest {e : QueueEntry} {r : ResultCode} {p : List Byte} (h : ∀ x ∈ s.dispatcher.queue, x.wait ≠ .slotQueued) :
    slotsRest (answered s e r p) := by
  refine .inr (nextSlotRequest_none fun x hx => ?_)
  rcases List.mem_append.1 hx with hx | hx
  · exact h x hx
  · obtain rfl := List.mem_singleton.1 hx
    exact Wait.noConfusion

/-- A slot request that is taken on its arrival. -/
theorem serve_slot_taken {e : QueueEntry} (hk : e.kind = .slotLoad ∨ e.kind = .slotRevoke)
    (h : ∀ x ∈ s.dispatcher.queue, x.tag ≠ e.tag) (hw : s.digest.writing = none)
    (hq : ∀ x ∈ s.dispatcher.queue, x.wait ≠ .slotQueued) {t : State}
    (ht : takeSlot (arrived s e) { e with wait := .slotQueued } = t) (hr : slotsRest t) : (holding s e).serve e = t := by
  subst ht
  rw [serve_slot hk h]
  exact runSlots_take hw (arrived_next e hq) hr

/-- A slot request that is completed on its arrival. -/
theorem exec_slot_completes {k : RequestKind} {tag claimed : Byte} {p : List Byte} {r : ResultCode} {reply : List Byte}
    (hk : k = .slotLoad ∨ k = .slotRevoke) (ha : admits s k tag claimed p) (hw : s.digest.writing = none)
    (hq : ∀ x ∈ s.dispatcher.queue, x.wait ≠ .slotQueued)
    (ht : takeSlot (arrived s (entryOf s k tag claimed p .owner)) (entryOf s k tag claimed p .slotQueued) =
      (arrived s (entryOf s k tag claimed p .owner)).complete { tag := tag, result := r, payload := reply }) :
    exec (requestOf k tag claimed p) s = .next (answered s (entryOf s k tag claimed p .owner) r reply) := by
  have hc : (arrived s (entryOf s k tag claimed p .owner)).complete { tag := tag, result := r, payload := reply } =
      answered s (entryOf s k tag claimed p .owner) r reply :=
    State.finish_holding (e := entryOf s k tag claimed p .slotQueued) ha.2.1 r reply
  refine exec_refuses ha ?_
  rw [serve_slot_taken hk ha.2.1 hw hq (ht.trans hc) (answered_rest hq), State.finish_holding ha.2.1]

theorem slotLoad_taken {tag claimed : Byte} {k : SlotNo} {issuer : BitVec 32} {secret : BitVec 256} {p : List Byte}
    (hp : p = slotLoadBytes k issuer secret) (ha : admits s .slotLoad tag claimed p) (hw : s.digest.writing = none)
    (hq : ∀ e ∈ s.dispatcher.queue, e.wait ≠ .slotQueued) (hs : (s.slot k).state = .empty)
    (hb : ¬∃ j, j ≠ k ∧ (s.slot j).state ≠ .empty ∧ slotTag j (s.slot j) = issuer) :
    exec (.slotLoad tag claimed p) s = .next
      { holding s (entryOf s .slotLoad tag claimed p .slotWriting) with
        digest := { s.digest with writing := some { request := tag, slot := k, kind := .load issuer secret } } } := by
  let t : State := { s with digest := { s.digest with
    writing := some { request := tag, slot := k, kind := .load issuer secret } } }
  have htake : takeSlot (arrived s (entryOf s .slotLoad tag claimed p .owner)) (entryOf s .slotLoad tag claimed p .slotQueued) =
      (holding t (entryOf s .slotLoad tag claimed p .slotQueued)).setWait tag .slotWriting :=
    takeSlotLoad_begins (s := arrived s (entryOf s .slotLoad tag claimed p .owner)) hp hs hb
  have hset : ∀ w, (holding t (entryOf s .slotLoad tag claimed p w)).setWait tag .slotWriting =
      holding t (entryOf s .slotLoad tag claimed p .slotWriting) := fun w =>
    State.setWait_holding (s := t) (e := entryOf s .slotLoad tag claimed p w) ha.2.1 _
  refine exec_waits (k := .slotLoad) (t := t) ha ?_ rfl rfl
  rw [serve_slot_taken (.inl rfl) ha.2.1 hw hq (htake.trans (hset _)) (.inl rfl), hset]

/-- What a taken SLOT-REVOKE of a slot that is not REVOKED makes of the slots and of the bays (R51, R21). -/
structure slotRevoked (e : QueueEntry) (k : SlotNo) (s t : State) : Prop where
  slots : t.digest.slots = s.digest.slots.set k { s.slot k with state := .revoked }
  store : t.digest.store = s.digest.store
  writing : t.digest.writing = some { request := e.tag, slot := k, kind := .revoke }
  others : ∀ b : Bay, (s.slot k).state = .empty ∨ (s.bay b).slot ≠ some k → t.bay b = s.bay b
  own : ∀ b : Bay, (s.slot k).state = .enabled → (s.bay b).slot = some k → bayRevoked s t b
  queue : tagsUnique s → e ∈ s.dispatcher.queue → { e with wait := .slotWriting } ∈ t.dispatcher.queue

theorem takeSlot_revokes {e : QueueEntry} {k : SlotNo} (hk : e.kind = .slotRevoke) (hp : e.payload = [BitVec.ofNat 8 k.val])
    (hs : (s.slot k).state ≠ .revoked) : slotRevoked e k s (takeSlot s e) := by
  have hkind : takeSlot s e = s.takeSlotRevoke e := if_neg (by rw [hk]; exact RequestKind.noConfusion)
  have hbegun : tagsUnique s → e ∈ s.dispatcher.queue → holdsWriting { e with wait := .slotWriting } (revokeBegun s e k) :=
    fun hu he => ⟨tagsUnique_setWait _ _ hu, mem_setWait (s := s) _ he, rfl⟩
  rw [hkind, takeSlotRevoke_begins hp hs]
  split
  · rename_i hen
    have h := forBays_revokeBay k (revokeBegun s e k)
    exact ⟨h.slots, h.store, h.writing, fun b hb => h.elsewhere b (hb.resolve_left fun h => by rw [hen] at h; exact nomatch h),
      fun b _ hb => h.own b (mem_allBays b) hb, fun hu he => (h.queue _ (hbegun hu he)).2.1⟩
  · rename_i hen
    exact ⟨rfl, rfl, rfl, fun _ _ => rfl, fun _ h => absurd h hen, fun hu he => (hbegun hu he).2.1⟩

/-- Settles O29: the arrival of a slot request is the taking of the one request that waits. -/
theorem slotRequestsBeginTheStoreWrite : Obligations.SlotRequestsBeginTheStoreWrite := by
  refine ⟨fun s tag claimed k issuer secret p hp ha hw hq => ?_, fun s tag claimed k ha hw hq => ?_,
    fun s tag claimed kind p hk ha => ⟨fun n rest hpn hn hw hq => ?_, fun hw => ?_⟩⟩
  · intro borne
    refine ⟨fun hs hb => slotLoad_taken hp ha hw hq hs hb, fun hs => ?_, fun hs hb => ?_⟩
    · exact exec_slot_completes (k := .slotLoad) (.inl rfl) ha hw hq
        (takeSlotLoad_occupied (s := arrived s (entryOf s .slotLoad tag claimed p .owner)) hp hs)
    · exact exec_slot_completes (k := .slotLoad) (.inl rfl) ha hw hq
        (takeSlotLoad_borne (s := arrived s (entryOf s .slotLoad tag claimed p .owner)) hp hs hb)
  · let e := entryOf s .slotRevoke tag claimed [BitVec.ofNat 8 k.val] .owner
    refine ⟨fun hs => ?_, fun hs => ?_⟩
    · refine exec_slot_completes (k := .slotRevoke) (.inr rfl) ha hw hq
        (.trans (takeSlotRevoke_revoked (s := arrived s e) (k := k) rfl hs) ?_)
      have hr : slotReply (arrived s e) k = [BitVec.ofNat 8 k.val, 0x02#8] := by
        unfold slotReply
        rw [show (arrived s e).slot k = s.slot k from rfl, hs]; rfl
      rw [hr]; rfl
    · obtain ⟨t, hexec, ⟨l, n, ht⟩, -⟩ := exec_event ha (serve_slot_taken (.inr rfl) ha.2.1 hw hq rfl
        (.inl (by rw [(takeSlot_revokes (s := arrived s e) (e := { e with wait := .slotQueued }) rfl rfl hs).writing]; rfl)))
      have h := takeSlot_revokes (s := arrived s e) (e := { e with wait := .slotQueued }) rfl rfl hs
      refine ⟨t, hexec, ?_⟩
      generalize takeSlot (arrived s e) { e with wait := .slotQueued } = x at ht h
      rw [ht]
      exact ⟨h.slots, h.store, h.writing, h.others, fun b hen hb => h.own b hen hb⟩
  · refine exec_slot_completes hk ha hw hq ?_
    exact takeSlot_above hpn hn
  · refine exec_waits (k := kind) (t := s) ha ?_ rfl rfl
    rw [serve_slot hk ha.2.1, runSlots_rest (s := arrived s (entryOf s kind tag claimed p .owner)) (.inl hw)]
    exact (State.setWait_holding (e := entryOf s kind tag claimed p .owner) ha.2.1 _).symm

end Sys2Proof.Machine
end

section
/-! PROOF. O28: the end of a store write, and of the slot table's read. -/

namespace Sys2Proof.Machine

open Sys2Proof.Safety

variable {s : State}

/-! ### The end of a store write (R49 to R52) -/

/-- The table and the store as write `w` leaves them, its request not yet completed. -/
def writeDone (s : State) (w : SlotWrite) (r : StoreResult) : State := { s with digest := { s.digest with
  slots := upd s.digest.slots w.slot (w.kind.tableAfter r)
  store := upd s.digest.store w.slot (w.kind.landed (storeLanded r))
  writing := none } }

/-- The completion of the write's request. -/
def writeCompletion (s : State) (w : SlotWrite) (r : StoreResult) : Completion where
  tag := w.request
  result := storeCode r
  payload := slotReply (writeDone s w r) w.slot

theorem storeWriteEnded_eq {w : SlotWrite} (hw : s.digest.writing = some w) (r : StoreResult) :
    s.storeWriteEnded r = ((writeDone s w r).complete (writeCompletion s w r)).runSlots := by
  unfold State.storeWriteEnded
  rw [hw]; rfl

theorem storeWriteEnded_alone {w : SlotWrite} (hw : s.digest.writing = some w)
    (hq : ∀ e ∈ s.dispatcher.queue, e.wait ≠ .slotQueued) (r : StoreResult) :
    s.storeWriteEnded r = (writeDone s w r).complete (writeCompletion s w r) := by
  rw [storeWriteEnded_eq hw]
  exact runSlots_rest (.inr (nextSlotRequest_none (complete_noneQueued _ hq)))

theorem storeWriteEnded_fields {w : SlotWrite} (hw : s.digest.writing = some w)
    (hq : ∀ e ∈ s.dispatcher.queue, e.wait ≠ .slotQueued) (r : StoreResult) :
    (s.storeWriteEnded r).digest = (writeDone s w r).digest ∧ (s.storeWriteEnded r).bays = s.bays ∧
      (s.storeWriteEnded r).accounts = s.accounts := by
  obtain ⟨l, q, h⟩ := (writeDone s w r).complete_only (writeCompletion s w r)
  rw [storeWriteEnded_alone hw hq, h]
  exact ⟨rfl, rfl, rfl⟩

/-- The commands that end a store write, and what they end it with. -/
theorem exec_storeWrite (s : State) {c : Instr} {success : Bool} (hc : (c = .storeWriteDone .success ∧ success = true) ∨
      ((∃ landed, c = .storeWriteDone (.failure landed) ∨ c = .storeWriteTimeout landed) ∧ success = false)) :
    ∃ r, exec c s = .next (s.storeWriteEnded r) ∧ (success = true ∧ r = .success ∨ success = false ∧ ∃ l, r = .failure l) := by
  rcases hc with ⟨rfl, h⟩ | ⟨⟨l, rfl | rfl⟩, h⟩
  · exact ⟨.success, rfl, .inl ⟨h, rfl⟩⟩
  · exact ⟨.failure l, rfl, .inr ⟨h, l, rfl⟩⟩
  · exact ⟨.failure l, rfl, .inr ⟨h, l, rfl⟩⟩

theorem storeWriteEnded_link {w : SlotWrite} (hw : s.digest.writing = some w)
    (hq : ∀ e ∈ s.dispatcher.queue, e.wait ≠ .slotQueued) (r : StoreResult) (hu : tagsUnique s) {e : QueueEntry}
    (he : e ∈ s.dispatcher.queue) (ht : e.tag = w.request) :
    (s.storeWriteEnded r).link = (placing s (replyOf e (storeCode r)
      [BitVec.ofNat 8 w.slot.val, BitVec.ofNat 8 ((s.storeWriteEnded r).slot w.slot).state.code])).link := by
  have hslot : (s.storeWriteEnded r).slot w.slot = (writeDone s w r).slot w.slot :=
    congrArg (fun d : Digest => d.slots[w.slot]) (storeWriteEnded_fields hw hq r).1
  rw [hslot, storeWriteEnded_alone hw hq]
  unfold writeCompletion
  rw [← ht, complete_of_tagsUnique (s := writeDone s w r) hu he]
  rfl

/-! ### The next slot request taken (R49, R179) -/

/-- The state in which store write `w` has ended and its request is completed, `next` the first of the slot requests that wait. -/
structure nextToTake (s v : State) (w : SlotWrite) (success : Bool) (first next : QueueEntry) (others : List QueueEntry) :
    Prop where
  writing : v.digest.writing = none
  slots : v.digest.slots = tableAfter s w success
  unique : tagsUnique v
  mem : next ∈ v.dispatcher.queue
  queued : (v.dispatcher.queue.filter fun e => e.wait = .slotQueued) = next :: others.filter fun e => e.tag ≠ w.request
  link : v.link = (placing s (replyOf first (if success then .ok else .failed)
    [BitVec.ofNat 8 w.slot.val, BitVec.ofNat 8 (tableAfter s w success)[w.slot].state.code])).link

theorem writeDone_slots {w : SlotWrite} {success : Bool} {r : StoreResult}
    (hr : success = true ∧ r = .success ∨ success = false ∧ ∃ l, r = .failure l) :
    (writeDone s w r).digest.slots = tableAfter s w success := by
  unfold writeDone tableAfter
  obtain ⟨request, k, kind⟩ := w
  rcases hr with ⟨rfl, rfl⟩ | ⟨rfl, l, rfl⟩ <;> cases kind
  · rfl
  · exact upd_id _ _ _ rfl
  · rfl
  · exact upd_id _ _ _ rfl

theorem storeWriteEnded_next {w : SlotWrite} {success : Bool} {first next : QueueEntry} {others : List QueueEntry}
    {r : StoreResult} (hw : s.digest.writing = some w) (hu : tagsUnique s)
    (hr : success = true ∧ r = .success ∨ success = false ∧ ∃ l, r = .failure l) (hf : first ∈ s.dispatcher.queue)
    (ht : first.tag = w.request) (hn : next.tag ≠ w.request)
    (hq : (s.dispatcher.queue.filter fun e => e.wait = .slotQueued) = next :: others) :
    ∃ v, s.storeWriteEnded r = v.runSlots ∧ nextToTake s v w success first next others := by
  have hmem : next ∈ s.dispatcher.queue := List.mem_of_mem_filter (hq ▸ List.mem_cons_self ..)
  have hslots := writeDone_slots (s := s) (w := w) hr
  have hcode : storeCode r = if success then .ok else .failed := by
    rcases hr with ⟨rfl, rfl⟩ | ⟨rfl, l, rfl⟩ <;> rfl
  refine ⟨_, storeWriteEnded_eq hw r, ?_⟩
  have hc : (writeDone s w r).complete (writeCompletion s w r) =
      placing ((writeDone s w r).setWait w.request .replied) (replyOf first (storeCode r) (slotReply (writeDone s w r) w.slot)) := by
    unfold writeCompletion
    rw [← ht]
    exact complete_of_tagsUnique (s := writeDone s w r) hu hf _ _
  rw [hc]
  refine ⟨rfl, hslots, tagsUnique_setWait (s := s) _ _ hu, mem_setWait_ne (s := s) _ hmem hn, ?_, ?_⟩
  · refine (filter_setWait (w' := .slotQueued) Wait.noConfusion w.request s.dispatcher.queue).trans ?_
    rw [hq, List.filter_cons_of_pos (by simpa using hn)]
  · have hpay : slotReply (writeDone s w r) w.slot =
        [BitVec.ofNat 8 w.slot.val, BitVec.ofNat 8 (tableAfter s w success)[w.slot].state.code] := by
      rw [← hslots]; rfl
    rw [hpay, hcode, placing_link, placing_link]
    rfl

section
variable {v : State} {w : SlotWrite} {success : Bool} {first next : QueueEntry} {others : List QueueEntry}

theorem runSlots_next (h : nextToTake s v w success first next others) (hr : slotsRest (takeSlot v next)) :
    v.runSlots = takeSlot v next := by
  refine runSlots_take h.writing ?_ hr
  rw [nextSlotRequest_eq, h.queued]; rfl

/-- The next request completes, and no third waits (R49, R179). -/
theorem runSlots_completes (h : nextToTake s v w success first next others) (ho : others = []) {r : ResultCode} {p : List Byte}
    (ht : takeSlot v next = v.complete { tag := next.tag, result := r, payload := p }) :
    v.runSlots.digest.writing = none ∧ v.runSlots.digest.slots = tableAfter s w success ∧
      { next with wait := .replied } ∈ v.runSlots.dispatcher.queue ∧
      v.runSlots.link = (placing (placing s (replyOf first (if success then .ok else .failed)
        [BitVec.ofNat 8 w.slot.val, BitVec.ofNat 8 (tableAfter s w success)[w.slot].state.code])) (replyOf next r p)).link := by
  have hqueued := h.queued
  rw [ho] at hqueued
  rw [complete_of_tagsUnique h.unique h.mem] at ht
  have hrest : slotsRest (takeSlot v next) := by
    refine .inr ?_
    rw [ht, nextSlotRequest_eq]
    have hf := filter_setWait (w := .replied) (w' := .slotQueued) Wait.noConfusion next.tag v.dispatcher.queue
    have : ((placing (v.setWait next.tag .replied) (replyOf next r p)).dispatcher.queue.filter fun e => e.wait = .slotQueued) = [] := by
      refine hf.trans ?_
      rw [hqueued]; simp
    rw [this]; rfl
  rw [runSlots_next h hrest, ht]
  refine ⟨h.writing, h.slots, mem_setWait _ h.mem, ?_⟩
  rw [placing_link, placing_link]
  exact congrArg (Link.place · _) h.link

end

/-! ### The end of the slot table's read (R48, R137, R175) -/

/-- The end of STARTING does not depend on the line or on the free orders. -/
theorem leavesStarting_relink {u t : State} (h : leavesStarting u t) (l : Link) (n : Nat) :
    leavesStarting { u with link := l, free := n } { t with link := l, free := n } := by
  unfold leavesStarting at h ⊢
  refine ⟨fun hm => ?_, fun hm => ?_⟩
  · obtain ⟨h1, h2⟩ := h.1 hm
    exact ⟨by rw [h1], h2⟩
  · exact congrArg (fun t : State => { t with link := l, free := n }) (h.2 hm)

theorem leaveStarting_only (u : State) : ∃ p v, u.leaveStarting = { u with supply := p, bays := v } := by
  have h := leaveStarting_leaves u
  unfold leavesStarting at h
  by_cases hm : u.supply.state = .starting ∧ u.journal.startupDone = true ∧ u.digest.slotsRead = true ∧
      u.supply.warn = false ∧ u.supply.crit = false
  · exact ⟨_, _, (h.1 hm).1⟩
  · exact ⟨_, _, h.2 hm⟩

theorem foldl_placing_link (rs : List Reply) : ∀ s : State, (rs.foldl placing s).link = rs.foldl Link.place s.link := by
  induction rs with
  | nil => exact fun _ => rfl
  | cons r rs ih => exact fun s => (ih _).trans (by rw [List.foldl_cons, placing_link])

/-- The state whose table holds what the key store holds (R48). -/
def tableFilled (s : State) : State := { s with digest := { s.digest with slots := s.digest.store, slotsRead := true } }

/-- What completes a request at the end of the slot table's read, if it waits for it (R175). -/
def identEnding (s : State) (e : QueueEntry) : Option Completion :=
  if e.wait = .slotRead then some { tag := e.tag, result := .ok, payload := identReply s } else none

/-- The state in which the IDENTs that waited for the slot table are answered (R175). -/
def identsAnswered (s : State) : State :=
  (tableFilled s).completeAll (s.dispatcher.queue.filterMap (identEnding (tableFilled s)))

theorem map_filter_eq_filterMap {α β : Type} (p : α → Prop) [DecidablePred p] (g : α → β) (l : List α) :
    (l.filter fun x => p x).map g = l.filterMap fun x => if p x then some (g x) else none := by
  induction l with
  | nil => rfl
  | cons a l ih => by_cases h : p a <;> simp [h, ih]

theorem slotTableRead_eq (h : s.digest.slotsRead = false) : s.slotTableRead = (identsAnswered s).leaveStarting := by
  unfold State.slotTableRead
  rw [if_neg (by rw [h]; decide)]
  exact congrArg (fun cs => ((tableFilled s).completeAll cs).leaveStarting) (map_filter_eq_filterMap _ _ _)

theorem identsAnswered_only (s : State) :
    ∃ l q, identsAnswered s = { tableFilled s with link := l, dispatcher := { s.dispatcher with queue := q } } :=
  (tableFilled s).completeAll_only _

theorem identsAnswered_unique (hu : tagsUnique s) :
    (identsAnswered s).dispatcher = { s.dispatcher with queue := completing .slotRead s.dispatcher.queue } ∧
      (identsAnswered s).link = ((s.dispatcher.queue.filter fun e => e.wait = .slotRead).map fun e =>
        replyOf e .ok (identReply (tableFilled s))).foldl Link.place s.link := by
  have h := State.completeAll_unique (tableFilled s) hu (identEnding (tableFilled s)) fun q c hc => by
    unfold identEnding at hc
    split at hc
    · obtain rfl := Option.some.inj hc
      exact ⟨rfl, rfl⟩
    · exact nomatch hc
  have hfill : (tableFilled s).dispatcher = s.dispatcher := rfl
  unfold identsAnswered
  rw [hfill] at h
  rw [h]
  refine ⟨?_, ?_⟩
  · refine congrArg (fun q => ({ s.dispatcher with queue := q } : Dispatcher)) (List.map_congr_left fun e _ => ?_)
    unfold identEnding
    by_cases hw : e.wait = .slotRead
    · rw [if_pos hw, if_pos hw]; rfl
    · rw [if_neg hw, if_neg hw]; rfl
  · refine congrArg (List.foldl Link.place s.link) ?_
    rw [map_filter_eq_filterMap]
    refine List.filterMap_congr fun e _ => ?_
    unfold identEnding
    split <;> rfl

theorem slotTableRead_ends (h : s.digest.slotsRead = false) : ∃ t, exec .slotTableReadDone s = .next t ∧
    leavesStarting { s with
      digest := { s.digest with slots := s.digest.store, slotsRead := true }
      dispatcher := t.dispatcher, link := t.link, free := t.free } t ∧
    (tagsUnique s → t.dispatcher = { s.dispatcher with queue := completing .slotRead s.dispatcher.queue } ∧
      places s t ((s.dispatcher.queue.filter fun e => e.wait = .slotRead).map fun e => replyOf e .ok (identReply t))) := by
  obtain ⟨p, v, hleave⟩ := leaveStarting_only (identsAnswered s)
  have hf := slotTableRead_eq h
  refine ⟨s.together State.slotTableRead, rfl, ?_, fun hu => ?_⟩
  · obtain ⟨l, n, ht⟩ := s.together_only State.slotTableRead
    have hl := leavesStarting_relink (leaveStarting_leaves (identsAnswered s)) l n
    rw [← hf, ← ht] at hl
    have hd : (s.together State.slotTableRead).dispatcher = (identsAnswered s).dispatcher := by rw [ht, hf, hleave]
    have hlink : (s.together State.slotTableRead).link = l := by rw [ht]
    have hfree : (s.together State.slotTableRead).free = n := by rw [ht]
    rw [hd, hlink, hfree]
    obtain ⟨l', q, ho⟩ := identsAnswered_only s
    rw [ho] at hl ⊢
    exact hl
  · obtain ⟨hd, hl⟩ := identsAnswered_unique hu
    have hlink : s.slotTableRead.link = (identsAnswered s).link := by rw [hf, hleave]
    obtain ⟨os, hp, ho⟩ := s.together_perm (hlink.trans hl)
    have hident : identReply (s.together State.slotTableRead) = identReply (tableFilled s) := by
      have hdig : (s.together State.slotTableRead).digest = (tableFilled s).digest := by
        obtain ⟨l', q, ho⟩ := identsAnswered_only s
        rw [State.together_digest, hf, hleave, ho]
      unfold identReply State.slot
      rw [hdig]
    refine ⟨by rw [State.together_dispatcher, hf, hleave]; exact hd, os, ?_, by rw [ho, foldl_placing_link]⟩
    rw [hident]
    exact hp

/-- Settles O28: the write's completion, the taking of the request that is next, and the end of the table's read. -/
theorem keyStoreEventsSetTheSlots : Obligations.KeyStoreEventsSetTheSlots := by
  refine ⟨fun s w hw hq => ?_, fun s w c success first next others hw hu hc hf ht hn hq => ?_, fun s h => slotTableRead_ends h⟩
  · intro failing
    have hfail : ∀ landed c, failing landed c → exec c s = .next (s.storeWriteEnded (.failure landed)) := by
      rintro landed c (rfl | rfl) <;> rfl
    refine ⟨fun tag secret hk => ⟨?_, fun landed c hc => ?_⟩, fun hk landed c hc => ?_, fun hu e he ht c r hc => ?_⟩
    · refine ⟨_, rfl, ?_⟩
      obtain ⟨hd, hrest⟩ := storeWriteEnded_fields hw hq .success
      refine ⟨hd.trans ?_, hrest⟩
      unfold writeDone
      rw [hk]; rfl
    · refine ⟨_, hfail landed c hc, ?_⟩
      obtain ⟨hd, hrest⟩ := storeWriteEnded_fields hw hq (.failure landed)
      refine ⟨hd.trans ?_, hrest⟩
      unfold writeDone
      rw [hk]; rfl
    · have hr : ∃ r, exec c s = .next (s.storeWriteEnded r) ∧ storeLanded r = landed := by
        rcases hc with ⟨rfl, rfl⟩ | hc
        · exact ⟨.success, rfl, rfl⟩
        · exact ⟨.failure landed, hfail landed c hc, rfl⟩
      obtain ⟨r, hexec, rfl⟩ := hr
      obtain ⟨hd, hrest⟩ := storeWriteEnded_fields hw hq r
      refine ⟨_, hexec, hd.trans ?_, hrest⟩
      unfold writeDone
      rw [hk, upd_id s.digest.slots w.slot _ rfl]
      cases storeLanded r with
      | true => rfl
      | false =>
        rw [upd_id s.digest.store w.slot _ rfl]; rfl
    · have hr : ∃ x, exec c s = .next (s.storeWriteEnded x) ∧ storeCode x = r := by
        rcases hc with ⟨rfl, rfl⟩ | ⟨⟨landed, hc⟩, rfl⟩
        · exact ⟨.success, rfl, rfl⟩
        · exact ⟨.failure landed, hfail landed c hc, rfl⟩
      obtain ⟨x, hexec, rfl⟩ := hr
      exact ⟨_, hexec, storeWriteEnded_link hw hq x hu he ht⟩
  · intro slots coded ended begins completes
    obtain ⟨r, hexec, hr⟩ := exec_storeWrite s hc
    obtain ⟨v, hv, h⟩ := storeWriteEnded_next hw hu hr hf ht hn hq
    rw [hv] at hexec
    have hslot : ∀ k, v.slot k = slots[k] := fun k => congrArg (fun x : Vector Slot 4 => x[k]) h.slots
    have hreply : ∀ k, slotReply v k = coded k := fun k =>
      congrArg (fun x : Slot => [BitVec.ofNat 8 k.val, BitVec.ofNat 8 x.state.code]) (hslot k)
    have hcompletes : ∀ {x : ResultCode} {p : List Byte},
        takeSlot v next = v.complete { tag := next.tag, result := x, payload := p } → completes x p := fun ht ho =>
      ⟨_, hexec, runSlots_completes h ho ht⟩
    have hbegins : slotsRest (takeSlot v next) → exec c s = .next (takeSlot v next) := fun hrest => by
      rw [hexec, runSlots_next h hrest]
    refine ⟨fun k tag secret hkind hp => ?_, fun k hkind hp => ⟨fun hs => ?_, fun hs => ?_⟩, fun n rest _ hp hn' =>
      hcompletes (takeSlot_above hp hn')⟩
    · intro borne
      have hload : takeSlot v next = v.takeSlotLoad next := if_pos hkind
      have hborne : (∃ j, j ≠ k ∧ (v.slot j).state ≠ .empty ∧ slotTag j (v.slot j) = tag) ↔ borne :=
        exists_congr fun j => by rw [hslot j]
      refine ⟨fun hs hb => ?_, fun hs hb => ?_, fun hs => ?_⟩
      · have ht := hload.trans (takeSlotLoad_begins hp ((congrArg Slot.state (hslot k)).trans hs) fun hj => hb (hborne.1 hj))
        refine ⟨_, hbegins (.inl (by rw [ht]; rfl)), ?_⟩
        rw [ht]
        exact ⟨rfl, mem_setWait (s := v) _ h.mem, h.slots⟩
      · refine hcompletes ?_
        rw [hload, takeSlotLoad_borne hp ((congrArg Slot.state (hslot k)).trans hs) (hborne.2 hb), hreply]
      · refine hcompletes ?_
        rw [hload, takeSlotLoad_occupied hp (by rw [hslot k]; exact hs), hreply]
    · have ht := takeSlot_revokes (s := v) hkind hp (by rw [hslot k]; exact hs)
      refine ⟨_, hbegins (.inl (by rw [ht.writing]; rfl)), ht.writing, ht.queue h.unique h.mem, ?_⟩
      rw [ht.slots, if_pos rfl, h.slots, hslot k]
    · have hrevoke : takeSlot v next = v.takeSlotRevoke next := if_neg (by rw [hkind]; exact RequestKind.noConfusion)
      refine hcompletes ?_
      rw [hrevoke, takeSlotRevoke_revoked hp ((congrArg Slot.state (hslot k)).trans hs), hreply]

end Sys2Proof.Machine
end

section
/-! PROOF. O9: a cold reset, and the replay of one valid sector. -/

namespace Sys2Proof.Machine

open Sys2Proof.Safety

variable {s t u : State}

/-! ### What the replay and the start-up erases can change -/

/-- The replay and the start-up erases change the history table, the notices' sources, and of the journal its flash, its sectors, its
newest-record map, its append set and its compaction. -/
def restarts (s t : State) : Prop := ∃ w v f y m a c k, t = { s with
  refill := w, notice := { s.notice with sources := v }
  journal := { s.journal with flash := f, sectors := y, newest := m, appendSet := a, compaction := c, copyStale := k } }

theorem restarts_refl (s : State) : restarts s s := ⟨_, _, _, _, _, _, _, _, rfl⟩

theorem restarts_trans (h : restarts s t) (k : restarts t u) : restarts s u := by
  obtain ⟨_, _, _, _, _, _, _, _, rfl⟩ := h
  obtain ⟨w, v, f, y, m, a, c, k, rfl⟩ := k
  exact ⟨w, v, f, y, m, a, c, k, rfl⟩

theorem restarts_foldl {α : Type} {f : State → α → State} (hf : ∀ s a, restarts s (f s a)) (l : List α) :
    ∀ s, restarts s (l.foldl f s) := by
  induction l with
  | nil => exact restarts_refl
  | cons a l ih => exact fun s => restarts_trans (hf s a) (ih _)

theorem replayRecord_restarts (s : State) (x : Sector) (r : JournalRecord) : restarts s (s.replayRecord x r) := by
  have first : restarts s (s.modJournal fun j => { j with newest := noteNewest j.newest r.serial x }) :=
    ⟨_, _, _, _, _, _, _, _, rfl⟩
  unfold State.replayRecord; dsimp only
  refine restarts_trans first ?_
  cases r with
  | evict y => exact ⟨_, _, _, _, _, _, _, _, rfl⟩
  | history h =>
    dsimp only
    split
    · exact ⟨_, _, _, _, _, _, _, _, rfl⟩
    · obtain ⟨t, v, j, k, hroom, -⟩ := makeRoom_only (s.modJournal fun j =>
        { j with newest := noteNewest j.newest (JournalRecord.history h).serial x })
      rw [hroom]
      exact ⟨_, _, _, _, _, _, _, _, rfl⟩

theorem replay_restarts (s : State) : restarts s s.replay := by
  have h : restarts s (s.journal.fullByAge.foldl State.replaySector s) :=
    restarts_foldl (fun s x => restarts_foldl (fun s r => replayRecord_restarts s x r) _ s) _ s
  exact restarts_trans h ⟨_, _, _, _, _, _, _, _, rfl⟩

theorem checkCompaction_restarts (s : State) : restarts s s.checkCompaction := by
  unfold State.checkCompaction
  split
  · split
    · rename_i x _
      unfold State.compact
      split
      · unfold State.compactionErase
        split
        · exact ⟨_, _, _, _, _, _, _, _, rfl⟩
        · exact ⟨_, _, _, _, _, _, _, _, rfl⟩
      · exact ⟨_, _, _, _, _, _, _, _, rfl⟩
    · exact restarts_refl s
  · exact restarts_refl s

theorem startErases_restarts (s : State) : restarts s s.startErases := by
  refine restarts_trans (restarts_foldl (fun s x => ?_) allSectors s) (checkCompaction_restarts _)
  split
  · exact ⟨_, _, _, _, _, _, _, _, rfl⟩
  · exact restarts_refl s

theorem coldReset_restarts (s : State) (i : ResetInputs) : restarts (s.resetBlocks i) (s.coldReset i) :=
  restarts_trans (replay_restarts _) (startErases_restarts _)

/-! ### The blocks after a cold reset (8.6) -/

theorem reset_bus (n : Bus) : State.reset.bus n = { lastGranted := bayOn n 0, current := none, restTimer := none } := by
  revert n; decide

theorem storeCutShort_of (h : s.digest.writing = none) (landed : Bool) : s.digest.storeCutShort landed = s.digest.store := by
  unfold Digest.storeCutShort; rw [h]

/-! ### Blank flash (R152, R154) -/

theorem startErases_none (h : ∀ x, (s.sector x).state ≠ .invalid) (hc : 2 ≤ s.journal.erasedCount) (hs : s.supply.state = .starting) :
    s.startErases = s := by
  have hfold : ∀ l : List Sector,
      l.foldl (fun s x => if (s.sector x).state = .invalid then s.modJournal fun j => j.beginErase x else s) s = s := by
    intro l
    induction l with
    | nil => rfl
    | cons x l ih => rw [List.foldl_cons, if_neg (h x)]; exact ih
  have hmay : s.compactionMayStart = false := by
    unfold State.compactionMayStart
    rw [hs]; dsimp only
    rw [decide_eq_false (Nat.not_lt.2 hc), Bool.false_and, Bool.false_and, Bool.and_false]
  unfold State.startErases
  rw [hfold]
  unfold State.checkCompaction
  rw [hmay, if_neg Bool.false_ne_true]

theorem resetBlocks_sector (hw : s.journal.writer = .idle) (i : ResetInputs) (x : Sector) :
    (s.resetBlocks i).sector x = s.journal.classify x := by
  have hcut : s.journal.cutShort = s.journal := by unfold Journal.cutShort; rw [hw]
  have h : (s.resetBlocks i).sector x = s.journal.cutShort.classify x := Vector.getElem_ofFn _
  rw [h, hcut]

theorem classify_blank {x : Sector} (ht : (s.sector x).torn ≠ some 0) (hb : s.journal.flash.sectorBlank x = true) :
    s.journal.classify x = { state := .erased, sequence := none, torn := none, erasing := none } := by
  unfold Journal.classify; dsimp only
  exact (if_neg ht).trans (if_pos hb)

theorem fullByAge_nil (h : ∀ x, (s.sector x).state ≠ .full) : s.journal.fullByAge = [] :=
  List.eq_nil_iff_forall_not_mem.2 fun x hx => h x ((mem_fullByAge s x).1 hx).1

theorem erasedCount_all (h : ∀ x, (s.sector x).state = .erased) : s.journal.erasedCount = 8 := by
  have hall : (allSectors.filter fun x => s.journal.sectors[x].state = .erased) = allSectors :=
    List.filter_eq_self.2 fun x _ => decide_eq_true (h x)
  unfold Journal.erasedCount
  rw [hall]; rfl

theorem coldReset_blank (i : ResetInputs) (hw : s.journal.writer = .idle) (hf : s.journal.flash = [])
    (ht : ∀ x, (s.sector x).torn ≠ some 0) : s.coldReset i = s.resetBlocks i := by
  have hsec : ∀ x, (s.resetBlocks i).sector x = { state := .erased, sequence := none, torn := none, erasing := none } := fun x => by
    rw [resetBlocks_sector hw, classify_blank (ht x) (by rw [hf]; rfl)]
  have hreplay : (s.resetBlocks i).replay = s.resetBlocks i := by
    unfold State.replay
    rw [fullByAge_nil fun x => by rw [hsec x]; exact SectorState.noConfusion]
    rfl
  unfold State.coldReset
  rw [hreplay]
  exact startErases_none (fun x => by rw [hsec x]; exact SectorState.noConfusion)
    (by rw [erasedCount_all fun x => by rw [hsec x]]; decide) rfl

theorem coldReset_blank_journal (i : ResetInputs) (hw : s.journal.writer = .idle) (hf : s.journal.flash = [])
    (ht : ∀ x, (s.sector x).torn ≠ some 0) : (s.resetBlocks i).journal = {
      flash := [], room := 0, mode := .normal, appendSet := [], writer := .idle, failures := 0, newest := []
      sectors := Vector.replicate 8 { state := .erased, sequence := none, torn := none, erasing := none }
      compaction := .idle, startupDone := false, copyStale := false } := by
  have hcut : s.journal.cutShort = s.journal := by unfold Journal.cutShort; rw [hw]
  have hsec : (Vector.ofFn fun x => s.journal.cutShort.classify x) =
      Vector.replicate 8 { state := .erased, sequence := none, torn := none, erasing := none } := by
    ext k hk
    rw [Vector.getElem_ofFn, Vector.getElem_replicate, hcut]
    exact classify_blank (x := ⟨k, hk⟩) (ht _) (by rw [hf]; rfl)
  change s.journal.afterReset = _
  unfold Journal.afterReset
  rw [hsec, hcut, hf]

end Sys2Proof.Machine
end

section
/-! PROOF. O9: the classification and the replay of one valid sector. -/

namespace Sys2Proof.Machine

open Sys2Proof.Safety

variable {s : State}

/-! ### The table's find (R118, R153) -/

theorem find_insertEntry_ne (e : HistoryEntry) (t : List HistoryEntry) {z : Serial} (h : e.serial ≠ z) :
    (insertEntry e t).find? (fun f => f.serial = z) = t.find? fun f => f.serial = z := by
  induction t with
  | nil => simp [insertEntry, h]
  | cons f t ih =>
    unfold insertEntry
    split
    · exact List.find?_cons_of_neg (by simpa using h)
    · rw [List.find?_cons, List.find?_cons, ih]

theorem length_insertEntry (e : HistoryEntry) (t : List HistoryEntry) : (insertEntry e t).length = t.length + 1 := by
  induction t with
  | nil => rfl
  | cons f t ih =>
    unfold insertEntry
    split
    · rfl
    · rw [List.length_cons, ih, List.length_cons]

theorem find_filter_same (t : List HistoryEntry) (z : Serial) :
    (t.filter fun e => e.serial != z).find? (fun e => e.serial = z) = none := by
  refine List.find?_eq_none.2 fun e he => ?_
  simpa using (List.mem_filter.1 he).2

theorem find_filter_ne (t : List HistoryEntry) {y z : Serial} (h : z ≠ y) :
    (t.filter fun e => e.serial != y).find? (fun e => e.serial = z) = t.find? fun e => e.serial = z := by
  rw [List.find?_filter]
  refine congrArg (fun p => List.find? p t) (funext fun e => ?_)
  by_cases he : e.serial = z <;> simp [he, h]

/-- A change of the entries of a serial that keeps the serial. -/
theorem find_map_serial (t : List HistoryEntry) (y z : Serial) (f : HistoryEntry → HistoryEntry)
    (hf : ∀ e, (f e).serial = y) : (t.map fun e => if e.serial = y then f e else e).find? (fun e => e.serial = z) =
      (t.find? fun e => e.serial = z).map fun e => if z = y then f e else e := by
  induction t with
  | nil => rfl
  | cons e t ih =>
    rw [List.map_cons, List.find?_cons, List.find?_cons, ih]
    by_cases he : e.serial = y
    · rw [if_pos he, hf]
      by_cases hz : y = z
      · rw [he]; simp [hz]
      · rw [he]; simp [hz]
    · rw [if_neg he]
      by_cases hz : e.serial = z
      · have : ¬z = y := fun k => he (hz.trans k)
        simp [hz, this]
      · simp [hz]

/-! ### The replay of a list of records (R153) -/

theorem lastRecord_own {z : Serial} {r : JournalRecord} (h : r.serial = z) (p : List JournalRecord) :
    ((p ++ [r]).filter fun r => r.serial = z).getLast? = some r := by
  rw [List.filter_append, List.filter_cons_of_pos (by simpa using h), List.filter_nil,
    List.getLast?_append_of_ne_nil _ (by simp)]
  rfl

theorem lastRecord_history (r : HistoryRecord) (k : Nat) (p : List JournalRecord) :
    lastRecord r.serial k (p ++ [.history r]) = some (r.toEntry k) := by
  have h := lastRecord_own (z := r.serial) (r := .history r) rfl p
  unfold lastRecord
  rw [h]

theorem lastRecord_evict (y : Serial) (k : Nat) (p : List JournalRecord) : lastRecord y k (p ++ [.evict y]) = none := by
  have h := lastRecord_own (z := y) (r := .evict y) rfl p
  unfold lastRecord
  rw [h]

theorem lastRecord_other {z : Serial} {r : JournalRecord} (h : r.serial ≠ z) (k : Nat) (p : List JournalRecord) :
    lastRecord z k (p ++ [r]) = lastRecord z k p := by
  unfold lastRecord
  rw [List.filter_append, List.filter_cons_of_neg (by simpa using h), List.filter_nil, List.append_nil]

/-- The entry of every serial is what the last of the records `p` about it says (R153). -/
def replayed (s : State) (p : List JournalRecord) : Prop :=
  s.refill.table.length ≤ p.length ∧ ∀ z, ∃ k, s.entry z = lastRecord z k p

/-- What the replay of records changes with the table not full: the table and the newest-record map. -/
def replays (s t : State) : Prop := ∃ w m, t = { s with refill := w, journal := { s.journal with newest := m } }

/-- One more record is replayed. -/
theorem replayRecord_replayed {p : List JournalRecord} (x : Sector) (r : JournalRecord) (hp : p.length < 192)
    (h : replayed s p) : replays s (s.replayRecord x r) ∧ replayed (s.replayRecord x r) (p ++ [r]) := by
  obtain ⟨hlen, hentry⟩ := h
  let u : State := s.modJournal fun j => { j with newest := noteNewest j.newest r.serial x }
  cases r with
  | evict y =>
    refine ⟨⟨_, _, rfl⟩, ?_, fun z => ?_⟩
    · rw [List.length_append]
      exact (List.length_filter_le _ _).trans (hlen.trans (Nat.le_add_right _ _))
    · obtain ⟨k, hk⟩ := hentry z
      refine ⟨k, ?_⟩
      change (s.refill.table.filter fun e => e.serial != y).find? (fun e => e.serial = z) = _
      by_cases hz : y = z
      · rw [← hz, find_filter_same, lastRecord_evict]
      · rw [find_filter_ne _ (Ne.symm hz), lastRecord_other (r := .evict y) hz]; exact hk
  | history r =>
    cases hr : s.entry r.serial with
    | some e0 =>
      have hrec : s.replayRecord x (.history r) = u.modEntry r.serial fun e => r.toEntry e.index := by
        unfold State.replayRecord; dsimp only
        rw [show (s.modJournal fun j => { j with newest := noteNewest j.newest (JournalRecord.history r).serial x }).entry r.serial =
          some e0 from hr]
      rw [hrec]
      refine ⟨⟨_, _, rfl⟩, ?_, fun z => ?_⟩
      · rw [List.length_append]
        change (s.refill.table.map _).length ≤ _
        rw [List.length_map]
        exact hlen.trans (Nat.le_add_right _ _)
      · have hfind : (u.modEntry r.serial fun e => r.toEntry e.index).entry z =
            (s.entry z).map fun e => if z = r.serial then r.toEntry e.index else e :=
          find_map_serial s.refill.table r.serial z _ fun _ => rfl
        rw [hfind]
        obtain ⟨k, hk⟩ := hentry z
        by_cases hz : r.serial = z
        · refine ⟨e0.index, ?_⟩
          rw [← hz, lastRecord_history, hr]
          exact congrArg some (if_pos rfl)
        · refine ⟨k, ?_⟩
          rw [lastRecord_other (r := .history r) hz, ← hk]
          cases s.entry z with
          | none => rfl
          | some e => exact congrArg some (if_neg (Ne.symm hz))
    | none =>
      have hroom : u.makeRoom = u := if_pos (Nat.lt_of_le_of_lt hlen hp)
      have hrec : s.replayRecord x (.history r) =
          u.modRefill fun w => { w with table := insertEntry (r.toEntry (lowestFree w.table)) w.table } := by
        unfold State.replayRecord; dsimp only
        rw [show (s.modJournal fun j => { j with newest := noteNewest j.newest (JournalRecord.history r).serial x }).entry r.serial =
          none from hr]
        exact congrArg (State.modRefill · _) hroom
      rw [hrec]
      refine ⟨⟨_, _, rfl⟩, ?_, fun z => ?_⟩
      · change (insertEntry _ s.refill.table).length ≤ _
        rw [length_insertEntry, List.length_append]
        exact Nat.add_le_add_right hlen 1
      · obtain ⟨k, hk⟩ := hentry z
        change ∃ k, (insertEntry (r.toEntry (lowestFree s.refill.table)) s.refill.table).find? (fun e => e.serial = z) = _
        by_cases hz : r.serial = z
        · refine ⟨lowestFree s.refill.table, ?_⟩
          rw [← hz, lastRecord_history]
          exact find_insertEntry (r.toEntry (lowestFree s.refill.table)) s.refill.table hr
        · refine ⟨k, ?_⟩
          rw [lastRecord_other (r := .history r) hz, find_insertEntry_ne _ _ hz]
          exact hk

theorem replays_trans {t u : State} (h : replays s t) (k : replays t u) : replays s u := by
  obtain ⟨_, _, rfl⟩ := h
  obtain ⟨w, m, rfl⟩ := k
  exact ⟨w, m, rfl⟩

theorem foldl_replayRecord (x : Sector) (rs : List JournalRecord) : ∀ (p : List JournalRecord) (s : State),
    (p ++ rs).length ≤ 192 → replayed s p →
    replays s (rs.foldl (fun s r => s.replayRecord x r) s) ∧ replayed (rs.foldl (fun s r => s.replayRecord x r) s) (p ++ rs) := by
  induction rs with
  | nil => exact fun p s _ h => ⟨⟨_, _, rfl⟩, by rwa [List.append_nil]⟩
  | cons r rs ih =>
    intro p s hlen h
    rw [List.length_append, List.length_cons] at hlen
    obtain ⟨h1, h2⟩ := replayRecord_replayed x r (by omega) h
    obtain ⟨h3, h4⟩ := ih (p ++ [r]) (s.replayRecord x r) (by simp only [List.length_append, List.length_cons, List.length_nil]; omega) h2
    rw [List.foldl_cons]
    exact ⟨replays_trans h1 h3, by rwa [List.append_assoc] at h4⟩

/-! ### The records of a sector (R153, R181) -/

/-- Blank bytes hold no record (R181). -/
theorem readRecord_blank (n : Nat) : readRecord (List.replicate n 0xFF#8) = none := by
  unfold readRecord; dsimp only
  refine if_pos ?_
  by_cases h : n < 4
  · simp [h]
  · have hk : byteAt (List.replicate n 0xFF#8) 0 = 0xFF#8 := by
      unfold byteAt
      rw [List.getD_eq_getElem _ _ (by rw [List.length_replicate]; omega), List.getElem_replicate]
    have hf : ∀ l, lengthFits 0xFF#8 l = false := fun _ => rfl
    rw [hk, hf]; simp

/-- The records written one behind the other, the rest of the area blank, are read back in order (R153). -/
theorem readRecords_written (n : Nat) (rs : List JournalRecord) : ∀ fuel, rs.length ≤ fuel → (∀ r ∈ rs, recordFits r) →
    readRecords fuel (rs.flatMap JournalRecord.bytes ++ List.replicate n 0xFF#8) = rs := by
  induction rs with
  | nil =>
    intro fuel _ _
    cases fuel with
    | zero => rfl
    | succ fuel =>
      rw [List.flatMap_nil, List.nil_append]
      unfold readRecords
      rw [readRecord_blank]
  | cons r rs ih =>
    intro fuel hfuel hfits
    obtain ⟨fuel, rfl⟩ : ∃ k, fuel = k + 1 := ⟨fuel - 1, by rw [List.length_cons] at hfuel; omega⟩
    have hr := readRecord_of_fits (hfits r (List.mem_cons_self ..))
      (rs.flatMap JournalRecord.bytes ++ List.replicate n 0xFF#8)
    rw [List.flatMap_cons, List.append_assoc]
    unfold readRecords
    rw [hr]; dsimp only
    rw [← JournalRecord.length_bytes r, List.drop_left,
      ih fuel (by rw [List.length_cons] at hfuel; omega) fun r' h => hfits r' (List.mem_cons_of_mem _ h)]

/-! ### One valid sector, the others blank (R152 to R154) -/

/-- A cold reset with no write cut short finds no sector torn, sector `x` valid with sequence number `n` and holding the records
`rs`, and the other sectors blank. -/
structure oneSector (s : State) (x : Sector) (n : BitVec 32) (rs : List JournalRecord) : Prop where
  idle : s.journal.writer = .idle
  whole : ∀ y, (s.sector y).torn = none
  bytes : s.journal.flash.readBytes (4096 * x.val) 4096 = headerBytesOf n ++ rs.flatMap JournalRecord.bytes ++
    List.replicate (4080 - (rs.flatMap JournalRecord.bytes).length) 0xFF#8
  blank : ∀ y, y ≠ x → s.journal.flash.sectorBlank y = true

section
variable {x : Sector} {n : BitVec 32} {rs : List JournalRecord}

theorem oneSector_parts (h : oneSector s x n rs) : s.journal.flash.readBytes (4096 * x.val) 16 = headerBytesOf n ∧
    s.journal.flash.readBytes (4096 * x.val + 16) 4080 = rs.flatMap JournalRecord.bytes ++
      List.replicate (4080 - (rs.flatMap JournalRecord.bytes).length) 0xFF#8 := by
  have hb := h.bytes
  rw [show 4096 = 16 + 4080 from rfl, Memory.readBytes_add, List.append_assoc] at hb
  exact List.append_inj hb (by simp [Memory.readBytes, length_headerBytesOf])

/-- Every byte of a blank sector reads blank (R181). -/
theorem read_of_sectorBlank {m : Memory} (h : m.sectorBlank x = true) : m.read (4096 * x.val) = blankByte := by
  have hf : m.find? (fun c => c.1 = 4096 * x.val) = none := by
    refine List.find?_eq_none.2 fun c hc he => ?_
    have hc : c.1 = 4096 * x.val := by simpa using he
    have hx := List.all_eq_true.1 h c ‹c ∈ m›
    rw [hc] at hx
    simp [Config.sectorBytes] at hx
  unfold Memory.read
  rw [hf]

theorem sectorBlank_false (h : oneSector s x n rs) : ¬s.journal.flash.sectorBlank x = true := by
  intro hb
  have hhead := congrArg List.head? (oneSector_parts h).1
  have hl : (s.journal.flash.readBytes (4096 * x.val) 16).head? = some (s.journal.flash.read (4096 * x.val)) := rfl
  rw [hl, read_of_sectorBlank hb] at hhead
  exact absurd (Option.some.inj hhead) (by decide)

theorem classify_valid (h : oneSector s x n rs) : s.journal.classify x =
    { state := .full, sequence := some n.toNat, torn := none, erasing := none } := by
  have ht : s.journal.sectors[x].torn = none := h.whole x
  have hr : readHeader (s.journal.flash.readBytes (sectorAddr x 0) Config.headerBytes) = some n.toNat := by
    rw [← readHeader_headerBytesOf n, ← (oneSector_parts h).1]; rfl
  unfold Journal.classify; dsimp only
  rw [ht, hr, if_neg (sectorBlank_false h)]
  rfl

/-- What a cold reset finds the sectors to be. -/
theorem resetBlocks_one (h : oneSector s x n rs) (i : ResetInputs) (y : Sector) : (s.resetBlocks i).sector y =
    if y = x then { state := .full, sequence := some n.toNat, torn := none, erasing := none }
    else { state := .erased, sequence := none, torn := none, erasing := none } := by
  rw [resetBlocks_sector h.idle]
  split
  · rename_i hy
    rw [hy, classify_valid h]
  · rename_i hy
    exact classify_blank (by rw [h.whole y]; exact nofun) (h.blank y hy)

theorem resetBlocks_flash (h : oneSector s x n rs) (i : ResetInputs) : (s.resetBlocks i).journal.flash = s.journal.flash := by
  have hcut : s.journal.cutShort = s.journal := by unfold Journal.cutShort; rw [h.idle]
  change s.journal.cutShort.flash = _
  rw [hcut]

theorem filter_own (x : Sector) : (allSectors.filter fun y => decide (y = x)) = [x] := by revert x; decide

theorem length_filter_others (x : Sector) : (allSectors.filter fun y => decide (y ≠ x)).length = 7 := by revert x; decide

theorem fullByAge_one {u : State} (h : ∀ y, (u.sector y).state = .full ∧ (u.sector y).erasing = none ↔ y = x) :
    u.journal.fullByAge = [x] := by
  have hsame : (allSectors.filter fun y => u.journal.sectors[y].state = .full && u.journal.sectors[y].erasing.isNone) =
      allSectors.filter fun y => decide (y = x) := by
    refine List.filter_congr fun y _ => ?_
    have hy := h y
    unfold State.sector at hy
    by_cases hx : y = x
    · obtain ⟨h1, h2⟩ := hy.2 hx
      rw [decide_eq_true h1, h2, decide_eq_true hx]; rfl
    · have := mt hy.1 hx
      simp only [hx, decide_false, Bool.and_eq_false_iff, decide_eq_false_iff_not]
      by_cases h1 : u.journal.sectors[y].state = .full
      · refine .inr ?_
        cases h2 : u.journal.sectors[y].erasing with
        | none => exact absurd ⟨h1, h2⟩ this
        | some _ => rfl
      · exact .inl h1
  unfold Journal.fullByAge; dsimp only
  rw [hsame, filter_own x]
  rfl

theorem recordsIn_one (h : oneSector s x n rs) (hfits : ∀ r ∈ rs, recordFits r) (hlen : rs.length ≤ 192) (i : ResetInputs) :
    (s.resetBlocks i).journal.recordsIn x = rs := by
  have ht : (s.resetBlocks i).journal.sectors[x].torn = none := by
    have := resetBlocks_one h i x
    rw [if_pos rfl] at this
    exact congrArg SectorRec.torn this
  have harea : (s.resetBlocks i).journal.area x = rs.flatMap JournalRecord.bytes ++
      List.replicate (4080 - (rs.flatMap JournalRecord.bytes).length) 0xFF#8 := by
    rw [← (oneSector_parts h).2, ← resetBlocks_flash h i]
    unfold Journal.area
    rw [ht]; rfl
  unfold Journal.recordsIn
  rw [harea]
  exact readRecords_written _ rs _ (hlen.trans (by decide)) hfits

theorem replay_one (h : oneSector s x n rs) (hfits : ∀ r ∈ rs, recordFits r) (hlen : rs.length ≤ 192) (i : ResetInputs) :
    ∃ v, replays (s.resetBlocks i) v ∧ replayed v rs ∧
      (s.resetBlocks i).replay = v.modRefill fun w => { w with sequence := rebuiltSequence w.table } := by
  have hfull : (s.resetBlocks i).journal.fullByAge = [x] := by
    refine fullByAge_one fun y => ?_
    rw [resetBlocks_one h]
    split
    · rename_i hy
      exact ⟨fun _ => hy, fun _ => ⟨rfl, rfl⟩⟩
    · rename_i hy
      exact ⟨fun k => SectorState.noConfusion k.1, fun k => absurd k hy⟩
  obtain ⟨h1, h2⟩ := foldl_replayRecord x rs [] (s.resetBlocks i) hlen ⟨Nat.le_refl 0, fun z => ⟨0, rfl⟩⟩
  refine ⟨_, h1, h2, ?_⟩
  unfold State.replay
  rw [hfull, List.foldl_cons, List.foldl_nil]
  unfold State.replaySector
  rw [recordsIn_one h hfits hlen i]

theorem erasedCount_one {u : State} (h : ∀ y, (u.sector y).state = .erased ↔ y ≠ x) : u.journal.erasedCount = 7 := by
  have hsame : (allSectors.filter fun y => u.journal.sectors[y].state = .erased) = allSectors.filter fun y => decide (y ≠ x) :=
    List.filter_congr fun y _ => decide_eq_decide.2 (h y)
  unfold Journal.erasedCount
  rw [hsame, length_filter_others x]

/-- The state after the cold reset: what the replay left, with the admission sequence set. -/
theorem coldReset_one (h : oneSector s x n rs) (hfits : ∀ r ∈ rs, recordFits r) (hlen : rs.length ≤ 192) (i : ResetInputs) :
    ∃ v, replays (s.resetBlocks i) v ∧ replayed v rs ∧
      s.coldReset i = v.modRefill fun w => { w with sequence := rebuiltSequence w.table } := by
  obtain ⟨v, h1, h2, h3⟩ := replay_one h hfits hlen i
  refine ⟨v, h1, h2, ?_⟩
  have hsec : ∀ y, (v.modRefill fun w => { w with sequence := rebuiltSequence w.table }).sector y = (s.resetBlocks i).sector y :=
    fun y => by obtain ⟨w, m, rfl⟩ := h1; rfl
  unfold State.coldReset
  rw [h3]
  refine startErases_none (fun y => ?_) ?_ ?_
  · rw [hsec, resetBlocks_one h]
    split <;> exact SectorState.noConfusion
  · rw [erasedCount_one (x := x) fun y => ?_]
    · decide
    · rw [hsec, resetBlocks_one h]
      split
      · rename_i hy
        exact ⟨fun k => SectorState.noConfusion k, fun k => absurd hy k⟩
      · rename_i hy
        exact ⟨fun _ => hy, fun _ => rfl⟩
  · obtain ⟨w, m, rfl⟩ := h1
    rfl

theorem rebuiltSequence_eq (t : List HistoryEntry) :
    rebuiltSequence t = if t = [] then 0 else min ((t.map (·.lastSeen)).foldl max 0 + 1) 4294967295 := by
  unfold rebuiltSequence
  exact if_congr List.isEmpty_iff rfl rfl

end

/-- Settles O9: the blocks by the frame of the replay and the start-up erases, and the classification and the replay of the flash. -/
theorem coldResetClearsEveryBlock : Obligations.ColdResetClearsEveryBlock := by
  refine ⟨fun s i => ?_, fun s i hw hf ht => ?_, fun s i x n rs hw ht hlen hfits hb hblank => ?_⟩
  · obtain ⟨w, v, f, y, m, a, c, k, h⟩ := coldReset_restarts s i
    refine ⟨_, congrArg Host.Outcome.next h, fun b => ⟨?_, ?_, ?_, ?_, ?_⟩, reset_bus, rfl, rfl, rfl, rfl, rfl,
      fun hw => storeCutShort_of hw _, rfl, rfl, rfl, rfl, rfl, rfl, rfl, rfl, rfl, rfl, rfl, rfl, rfl, rfl⟩
    all_goals exact Vector.getElem_replicate _
  · refine ⟨_, congrArg Host.Outcome.next (coldReset_blank i hw hf ht), rfl, coldReset_blank_journal i hw hf ht⟩
  · have h : oneSector s x n rs := ⟨hw, ht, hb, hblank⟩
    obtain ⟨v, hv, ⟨-, hentry⟩, hreset⟩ := coldReset_one h hfits hlen i
    refine ⟨_, congrArg Host.Outcome.next hreset, ?_, ?_, fun y => ?_, hentry, rebuiltSequence_eq _⟩
    · rw [← resetBlocks_flash h i]
      obtain ⟨w, m, rfl⟩ := hv; rfl
    · obtain ⟨w, m, rfl⟩ := hv; rfl
    · rw [← resetBlocks_one h i y]
      obtain ⟨w, m, rfl⟩ := hv; rfl

end Sys2Proof.Machine
end
